-- ==== Sys2Proof/Word.lean ====
section
/-! DEFINITION. The widths of the core's data (00_scope.md R9): bytes, diagnosis words, health codes, and the
6-bit address field of a command byte. -/

namespace Sys2Proof

/-- A command byte, data byte, register value, id field or relay mask (R9: `CMD_W`, `REG_W`). -/
abbrev Byte := BitVec 8

/-- A diagnosis word (R9: `STAT_W`). -/
abbrev Half := BitVec 16

/-- A health code, `(statCh, statGnd)` (R152). -/
abbrev Code2 := BitVec 2

/-- The address field, bits [5:0] of a command byte (R70, R72). -/
abbrev Addr6 := BitVec 6

/-- A frame: a finite byte sequence, index 0 first (R11, R52). -/
abbrev Frame := List Byte

end Sys2Proof
end

