-- ==== Sys2Proof/Config.lean ====
section
/-! DEFINITION. The parameters of 00_scope.md R9. The values the spec fixes are constants here (`CTL_ADDR` and the
position functions stand in Machine/Operands.lean and Machine/Codec.lean). The OPEN ones are the arguments of the
construction (`Construction`), so a claim about every construction is a claim for each of their values. -/

namespace Sys2Proof

/-- `TOPOLOGY` (R9, R21). -/
inductive Topology where
  | independent
  | daisyChained
deriving DecidableEq, Repr

/-- An opaque bus handle; the core only passes it on (R22). -/
abbrev Handle := Nat

/-- What the transport answers to `openChannel`: a handle, or a failure with its result (R194, R180). -/
inductive OpenResult where
  | handle (h : Handle)
  | failure (c : Int)
deriving DecidableEq, Repr

/-- INIT's arguments (R210) with the OPEN parameters of R9, and the transport's answers to the one or two
`openChannel` calls INIT makes (free values: R39). -/
structure Construction where
  topology : Topology
  ch1 : Nat
  ch2 : Nat
  chDC : Nat
  baud : Nat
  spiMode : Nat
  ownsTransport : Bool
  firstOpen : OpenResult
  secondOpen : OpenResult
deriving DecidableEq, Repr

namespace Config

/-- `ADDR_MIN` (R9). -/
def addrMin : Nat := 1
/-- `ADDR_MAX` (R9). -/
def addrMax : Nat := 8
/-- `N_RELAY` (R9). -/
def nRelay : Nat := 8
/-- `STAT_RESET` (R9): the initial diagnosis word. -/
def statReset : Half := 0xFFFF

/-- `FRAME_LEN` (R9, R77). -/
def frameLen : Topology → Nat
  | .independent => 2
  | .daisyChained => 4

end Config

end Sys2Proof
end

