-- ==== Sys2Proof/Syntax.lean ====
section
/-! DEFINITION. The two levels of 30_encoding.md as data: the port records (a request record, R80; a device word at a
device, R74), and `Instr`, one constructor per row of the opcode table. -/

namespace Sys2Proof

/-- A logical device, id 1 or 2 (R2, R13). -/
inductive Dev where
  | d1
  | d2
deriving DecidableEq, Repr

/-- The opcode field of a command byte (R71). -/
inductive Opcode where
  | diag
  | rd
  | rst
  | wr
deriving DecidableEq, Repr

/-- A relay selection (R82). -/
inductive Selection where
  | mask (m : Byte)
  | bools (bs : List Bool)
  | list (rs : List Byte)
deriving DecidableEq, Repr

/-- The `sel` field of a request record: tags 0 to 2, and the reserved tag 3 (R82, R83). -/
inductive SelField where
  | mask (m : Byte)
  | bools (bs : List Bool)
  | list (rs : List Byte)
  | reserved
deriving DecidableEq, Repr

/-- A request record as it stands at the request port (R80). -/
structure RequestRecord where
  op : BitVec 4
  dev : Byte
  a1 : Byte
  a2 : Byte
  v1 : Byte
  v2 : Byte
  relay : Byte
  sel : SelField
deriving DecidableEq, Repr

/-- A device word at the serial input of a device: its command byte and its data byte (R74). -/
structure WireWord where
  dev : Dev
  cmd : Byte
  data : Byte
deriving DecidableEq, Repr

/-- What stands at one of the two levels: a request record or a device word. -/
inductive PortWord where
  | request (r : RequestRecord)
  | wire (w : WireWord)
deriving DecidableEq, Repr

/-- The instructions: the four wire command bytes, each with the device that receives it and its data byte
(R70 to R74, R78), and the thirteen requests with the fields each one uses (R81). -/
inductive Instr where
  | diag (d : Dev) (data : Byte)
  | rd (d : Dev) (a : Addr6) (data : Byte)
  | rst (d : Dev) (a : Addr6) (data : Byte)
  | wr (d : Dev) (a : Addr6) (v : Byte)
  | read1 (dev a1 : Byte)
  | read2 (a1 a2 : Byte)
  | write1 (dev a1 v1 : Byte)
  | write2 (a1 v1 a2 v2 : Byte)
  | reset1 (dev a1 : Byte)
  | reset2 (a1 a2 : Byte)
  | relayOn (dev relay : Byte)
  | relayOff (dev relay : Byte)
  | relaysOn (dev : Byte) (sel : Selection)
  | relaysOff (dev : Byte) (sel : Selection)
  | status (dev : Byte)
  | health (dev relay : Byte)
  | teardown
deriving DecidableEq, Repr

/-- The two relay functions of R164. -/
inductive RelayFn where
  | setBits
  | clearBits
deriving DecidableEq, Repr

/-- Which devices a request addresses: one (a single-device request) or both (a pair request). -/
inductive Target where
  | one (d : Dev)
  | both
deriving DecidableEq, Repr

/-- A request that uses the bus, with its validated operands: what R120's post-actions look at. -/
inductive Job where
  | readOne (d : Dev) (a : Byte)
  | readPair (a1 a2 : Byte)
  | writeOne (d : Dev) (a v : Byte)
  | writePair (a1 v1 a2 v2 : Byte)
  | resetOne (d : Dev) (a : Byte)
  | resetPair (a1 a2 : Byte)
  | relay (d : Dev) (m : Byte) (f : RelayFn)
deriving DecidableEq, Repr

/-- The error kinds of R180. -/
inductive ErrorKind where
  | invalidAddress
  | invalidDevice
  | invalidRelay
  | modeViolation
  | transportFailure
  | initializationFailure
deriving DecidableEq, Repr

/-- Why bytes, a record or a device word spell no instruction. -/
inductive Reject where
  /-- The bytes end before the instruction does. -/
  | truncated
  /-- `op` 0x0, 0xE or 0xF (R83 a). -/
  | reservedOp
  /-- Selection tag 3 (R83 a). -/
  | reservedTag
  /-- A command byte that no row of the opcode table has: opcode `00` with a non-zero address (R73, R83 b, c). -/
  | undefinedCommandByte
  /-- A serialised field holds bits its width does not have (the model's own layout). -/
  | strayBits
deriving DecidableEq, Repr

end Sys2Proof
end

