-- ==== Sys2Proof/WellFormed.lean ====
section
/-! DEFINITION. Which instructions the encoding admits as the core itself would emit them (R72, R78, R83 b). A request
is well formed whatever its id fields hold: R80 makes invalid ids expressible, and 60_exceptions.md refuses them when the
request is accepted. -/

namespace Sys2Proof

/-- An address field the core places in RD, RST and WR bytes: 1..8 (R72, R83 b). -/
def emittedAddress (a : Addr6) : Bool := decide (1 ≤ a.toNat) && decide (a.toNat ≤ 8)

/-- The filler data byte of DIAG, RD and RST is 0x00 (R78). -/
def emittedFiller (b : Byte) : Bool := b == 0

def WellFormed : Instr → Bool
  | .diag _ data => emittedFiller data
  | .rd _ a data => emittedAddress a && emittedFiller data
  | .rst _ a data => emittedAddress a && emittedFiller data
  | .wr _ a _ => emittedAddress a
  | .read1 _ _ => true
  | .read2 _ _ => true
  | .write1 _ _ _ => true
  | .write2 _ _ _ _ => true
  | .reset1 _ _ => true
  | .reset2 _ _ => true
  | .relayOn _ _ => true
  | .relayOff _ _ => true
  | .relaysOn _ _ => true
  | .relaysOff _ _ => true
  | .status _ => true
  | .health _ _ => true
  | .teardown => true

end Sys2Proof
end

