-- ==== Sys2Proof/Decode.lean ====
section
/-! DEFINITION. The command byte (R70 to R72, R100 to R102, R109), the decoder of both levels, and after it the encoder.

The byte serialisation of a request record and of a device word is the model's own (DESIGN CHOICE, log 13: R80 gives the
record's fields and widths, no byte layout). A request record is
  op, dev, a1, a2, v1, v2, relay, tag, payload…   (`op` in bits 3:0 of the first byte; payload: the mask, or one byte per element)
and a device word is
  command byte, data byte, selector   (selector 0: device 1, 1: device 2).
The first byte tells the level, as the masks of the opcode table do: bits 7:6 not zero, or the byte 0x00, is a command byte;
0x01..0x0F is a request's `op`. At the request port itself a record is a record, so its `op` 0x0 is the reserved code. -/

namespace Sys2Proof

/-! ### The command byte -/

/-- R71. -/
def Opcode.code : Opcode → BitVec 2
  | .diag => 0b00
  | .rd => 0b01
  | .rst => 0b10
  | .wr => 0b11

/-- R71: all four values are used. -/
def Opcode.ofCode (c : BitVec 2) : Opcode :=
  if c = 0b00 then .diag else if c = 0b01 then .rd else if c = 0b10 then .rst else .wr

/-- R102. -/
def validAddress (a : Nat) : Bool := decide (Config.addrMin ≤ a) && decide (a ≤ Config.addrMax)

/-- The assembly formula `((opcode << 6) | address)[7:0]` of R70 and R100, without its guard. -/
def commandByte (op : Opcode) (a : Byte) : Byte := (op.code.setWidth 8 <<< 6) ||| a

/-- The numeric codes of R180. -/
def ErrorKind.code : ErrorKind → Nat
  | .invalidAddress => 1
  | .invalidDevice => 2
  | .invalidRelay => 3
  | .modeViolation => 4
  | .transportFailure => 5
  | .initializationFailure => 6

/-- R100, with its guard. -/
def encodeCommand (op : Opcode) (a : Nat) : Except ErrorKind Byte :=
  if validAddress a then .ok (commandByte op (BitVec.ofNat 8 a)) else .error .invalidAddress

/-- R101. -/
def decodeCommand (b : Byte) : Opcode × Addr6 := (Opcode.ofCode (b.extractLsb' 6 2), b.extractLsb' 0 6)

/-! ### Decoding -/

/-- R70, R71, R73: the opcode field selects the row; DIAG is the byte 0x00 alone. -/
def decodeWire (w : WireWord) : Except Reject Instr :=
  match decodeCommand w.cmd with
  | (.diag, a) => if a = 0 then .ok (.diag w.dev w.data) else .error .undefinedCommandByte
  | (.rd, a) => .ok (.rd w.dev a w.data)
  | (.rst, a) => .ok (.rst w.dev a w.data)
  | (.wr, a) => .ok (.wr w.dev a w.data)

/-- R82, R83. -/
def decodeSelection : SelField → Except Reject Selection
  | .mask m => .ok (.mask m)
  | .bools bs => .ok (.bools bs)
  | .list rs => .ok (.list rs)
  | .reserved => .error .reservedTag

/-- R81: the operation codes. The fields an operation does not use are ignored (R80). -/
def decodeRequest (r : RequestRecord) : Except Reject Instr :=
  match r.op.toNat with
  | 0x1 => .ok (.read1 r.dev r.a1)
  | 0x2 => .ok (.read2 r.a1 r.a2)
  | 0x3 => .ok (.write1 r.dev r.a1 r.v1)
  | 0x4 => .ok (.write2 r.a1 r.v1 r.a2 r.v2)
  | 0x5 => .ok (.reset1 r.dev r.a1)
  | 0x6 => .ok (.reset2 r.a1 r.a2)
  | 0x7 => .ok (.relayOn r.dev r.relay)
  | 0x8 => .ok (.relayOff r.dev r.relay)
  | 0x9 => (decodeSelection r.sel).map (.relaysOn r.dev)
  | 0xA => (decodeSelection r.sel).map (.relaysOff r.dev)
  | 0xB => .ok (.status r.dev)
  | 0xC => .ok (.health r.dev r.relay)
  | 0xD => .ok .teardown
  | _ => .error .reservedOp

def decodeWord : PortWord → Except Reject Instr
  | .request r => decodeRequest r
  | .wire w => decodeWire w

/-- A serialised Boolean is 0 or 1. -/
def isBoolByte (b : Byte) : Bool := b == 0 || b == 1

/-- The `sel` field from its tag byte and payload bytes. -/
def parseSelField (tag : Byte) (payload : List Byte) : Except Reject SelField :=
  match tag.toNat, payload with
  | 0, m :: _ => .ok (.mask m)
  | 0, [] => .error .truncated
  | 1, bs => if bs.all isBoolByte then .ok (.bools (bs.map (· == 1))) else .error .strayBits
  | 2, rs => .ok (.list rs)
  | 3, _ => .ok .reserved
  | _, _ => .error .strayBits

/-- The serialised device selector. -/
def parseDev (sel : Byte) : Except Reject Dev :=
  if sel = 0 then .ok .d1 else if sel = 1 then .ok .d2 else .error .strayBits

def parseRequest (op : Byte) : List Byte → Except Reject PortWord
  | dev :: a1 :: a2 :: v1 :: v2 :: relay :: tag :: payload =>
    if op.extractLsb' 4 4 = 0 then
      (parseSelField tag payload).map fun sel =>
        .request { op := op.extractLsb' 0 4, dev, a1, a2, v1, v2, relay, sel }
    else .error .strayBits
  | _ => .error .truncated

def parseWire (cmd : Byte) : List Byte → Except Reject PortWord
  | data :: sel :: _ => (parseDev sel).map fun dev => .wire { dev, cmd, data }
  | _ => .error .truncated

/-- Is a first byte a command byte of the opcode table (bits 7:6 not zero, or DIAG's 0x00)? -/
def isCommandByte (b : Byte) : Bool := b.extractLsb' 6 2 != 0 || b == 0

def parse : List Byte → Except Reject PortWord
  | [] => .error .truncated
  | b :: rest => if isCommandByte b then parseWire b rest else parseRequest b rest

/-- The decoder: total on any bytes, rejecting by name. -/
def decode (bytes : List Byte) : Except Reject Instr := (parse bytes).bind decodeWord

/-- How many bytes a table word is padded to with zeros: past the longest fixed part of an instruction. -/
def tableWordBytes : Nat := 16

/-- The bytes of a table word, the first byte in bits 7:0, with every bit above `nbits` zero. -/
def bytesOfTableWord (nbits w : Nat) : List Byte :=
  (List.range tableWordBytes).map fun k => BitVec.ofNat 8 ((w % 2 ^ nbits) >>> (8 * k))

/-- The instruction the decoder reads from a word numbered as the opcode table numbers it. -/
def decodeTableWord (nbits w : Nat) : Option Instr := (decode (bytesOfTableWord nbits w)).toOption

/-! ### Encoding -/

def encodeWireWord (d : Dev) (op : Opcode) (a : Addr6) (data : Byte) : PortWord :=
  .wire { dev := d, cmd := commandByte op (a.setWidth 8), data }

def Selection.field : Selection → SelField
  | .mask m => .mask m
  | .bools bs => .bools bs
  | .list rs => .list rs

/-- A request record with every field zero but `op`. -/
def emptyRecord (op : BitVec 4) : RequestRecord :=
  { op, dev := 0, a1 := 0, a2 := 0, v1 := 0, v2 := 0, relay := 0, sel := .mask 0 }

/-- The port word of an instruction, from R71 and R81; fields an operation does not use are zero. -/
def encodeWord : Instr → PortWord
  | .diag d data => encodeWireWord d .diag 0 data
  | .rd d a data => encodeWireWord d .rd a data
  | .rst d a data => encodeWireWord d .rst a data
  | .wr d a v => encodeWireWord d .wr a v
  | .read1 dev a1 => .request { emptyRecord 0x1 with dev, a1 }
  | .read2 a1 a2 => .request { emptyRecord 0x2 with a1, a2 }
  | .write1 dev a1 v1 => .request { emptyRecord 0x3 with dev, a1, v1 }
  | .write2 a1 v1 a2 v2 => .request { emptyRecord 0x4 with a1, v1, a2, v2 }
  | .reset1 dev a1 => .request { emptyRecord 0x5 with dev, a1 }
  | .reset2 a1 a2 => .request { emptyRecord 0x6 with a1, a2 }
  | .relayOn dev relay => .request { emptyRecord 0x7 with dev, relay }
  | .relayOff dev relay => .request { emptyRecord 0x8 with dev, relay }
  | .relaysOn dev sel => .request { emptyRecord 0x9 with dev, sel := sel.field }
  | .relaysOff dev sel => .request { emptyRecord 0xA with dev, sel := sel.field }
  | .status dev => .request { emptyRecord 0xB with dev }
  | .health dev relay => .request { emptyRecord 0xC with dev, relay }
  | .teardown => .request (emptyRecord 0xD)

def SelField.bytes : SelField → List Byte
  | .mask m => [0, m]
  | .bools bs => 1 :: bs.map fun b => if b then 1 else 0
  | .list rs => 2 :: rs
  | .reserved => [3]

def Dev.selector : Dev → Byte
  | .d1 => 0
  | .d2 => 1

def PortWord.bytes : PortWord → List Byte
  | .request r => r.op.setWidth 8 :: r.dev :: r.a1 :: r.a2 :: r.v1 :: r.v2 :: r.relay :: r.sel.bytes
  | .wire w => [w.cmd, w.data, w.dev.selector]

/-- The encoder: the bytes of an instruction. -/
def encode (i : Instr) : List Byte := (encodeWord i).bytes

end Sys2Proof
end

