-- ==== Sys2Proof/Machine/State.lean ====
section
/-! DEFINITION. The state of the core (10_state.md), the shadow of the devices' hidden state (10_state.md section 6), and
the four interfaces of R5 as plain data: what the outside world has presented and not yet been read, and what the core has
called. -/

namespace Sys2Proof.Machine

/-- R23. -/
inductive Life where
  | unconstructed
  | live
  | tornDown
deriving DecidableEq, Repr

/-- R24. -/
inductive Phase where
  | idle
  | commandIssued
  | resultPending
  | resultAvailable
deriving DecidableEq, Repr

/-- R25; the spec's value `none` is `Option.none`. -/
inductive Stage where
  | readStage
  | writeStage
deriving DecidableEq, Repr

/-- The payloads of R31 and D15. -/
inductive Payload where
  | unit
  | byte (v : Byte)
  | pair (v1 v2 : Byte)
  | word (w : Half)
  | code (c : Code2)
deriving DecidableEq, Repr

/-- The result register (R31): `Err` carries the raw transport code of TransportFailure, or the failing openChannel
result of InitializationFailure (R180, D27; log 24), and nothing otherwise. -/
inductive Result where
  | none
  | ok (p : Payload)
  | err (k : ErrorKind) (info : Option Int)
deriving DecidableEq, Repr

/-- The frame register `buf[0..3]` (R28). -/
structure Quad where
  b0 : Byte
  b1 : Byte
  b2 : Byte
  b3 : Byte
deriving DecidableEq, Repr

/-- One answer of the transport to `transfer` (R194): its result, and the buffer as the transport left it, of which the
first `len` bytes are the received frame (R57, D17). Both are free values (R39, U1, U7, U9; log 5). -/
structure Answer where
  result : Int
  rx : Quad
deriving DecidableEq, Repr

/-- The outcome of a transfer in `log` (R32). -/
inductive XferOutcome where
  | ok (rx : Frame)
  | fail (c : Int)
deriving DecidableEq, Repr

/-- An entry of `log` (R32). -/
structure LogEntry where
  handle : Handle
  tx : Frame
  outcome : XferOutcome
deriving DecidableEq, Repr

/-- A transport call other than `transfer` (R194, R212). The history of these is the model's own field (log 10). -/
inductive AdapterCall where
  | openChannel (selector baud mode : Nat) (result : OpenResult)
  | closeChannel (h : Handle)
  | shutdown
deriving DecidableEq, Repr

/-- What a device will shift out on its next transfer (R36): a status word, the value of the register a read command
named, or something no rule gives (R221, R222, R227). -/
inductive Latch where
  | unknown
  | status
  | register (a : Addr6)
deriving DecidableEq, Repr

/-- What is known of a device's register space (R34, R59), as a list of (address, byte) in one canonical form: addresses
strictly rising. It is the byte last put there by a delivered write command or by a change of the device's own (R67). An
address that is not listed is unknown. -/
abbrev Memory := List Host.Cell

/-- The shadow of a device's hidden state: no rule of the core reads it, and it constrains no answer (log 15). -/
structure Device where
  latch : Latch
  regs : Memory
deriving DecidableEq, Repr

/-- A register of the device register space: 0 to 7 stand for the addresses 1 to 8 (R34, R59). -/
abbrev RegIndex := Fin 8

/-- What happens at a device outside the core's transfers (R67, U12, R222). It may land between any two steps. -/
inductive ExternalEvent where
  /-- Another bus master's device word reaches the device. -/
  | word (w : WireWord)
  /-- The device changes one of its registers by itself. -/
  | register (d : Dev) (k : RegIndex) (v : Byte)
  /-- The device changes what it will shift out next. -/
  | latch (d : Dev) (l : Latch)
  /-- The environment resets the device, or something else happens to it after which nothing is known of it. -/
  | reset (d : Dev)
deriving DecidableEq, Repr

/-- Why the machine stops with a fault. -/
inductive Fault where
  /-- Raised by the ANSWER and FINISH steps in a state that R30 rules out (a transfer outstanding with no bus request in
  `cur`, or the reverse), where R120 enables no step. No step leads into such a state. Safe: the machine stops. -/
  | noStepEnabled
deriving DecidableEq, Repr

/-- Why the model has no meaning for what it was given. -/
inductive Refusal where
  /-- An instruction that has no meaning yet, by its mnemonic; raised by exec. Safe. -/
  | notModelled (mnemonic : String)
  /-- A request presented before INIT or after TEARDOWN (R195, U14, D18); raised when a request is accepted. Safe. -/
  | notLive
  /-- A request record that spells no request (R83 a, U15); raised by the fetch at the request port. Safe. -/
  | undefinedRequest (why : Reject)
deriving DecidableEq, Repr

structure State where
  /-- `topo` (R21). -/
  topo : Topology
  /-- `hdl[0]`, the shared handle when DaisyChained (R22). -/
  hdl0 : Handle
  /-- `hdl[1]`, device 1's handle when Independent (R22). -/
  hdl1 : Handle
  /-- `hdl[2]`, device 2's handle when Independent (R22). -/
  hdl2 : Handle
  /-- `life` (R23). -/
  life : Life
  /-- `phase` (R24). -/
  phase : Phase
  /-- `cur` (R25). -/
  cur : Option Instr
  /-- `stage` (R25). -/
  stage : Option Stage
  /-- `stat[1]` (R26). -/
  stat1 : Half
  /-- `stat[2]` (R26). -/
  stat2 : Half
  /-- `buf[0..3]` (R28). -/
  buf : Quad
  /-- `len` (R28). -/
  len : Nat
  /-- `rdval1` (R29). -/
  rdval1 : Byte
  /-- `rdval2` (R29). -/
  rdval2 : Byte
  /-- `xfer_out` (R30). -/
  xferOut : Option (Handle × Frame)
  /-- `res` (R31). -/
  res : Result
  /-- `log` (R32). -/
  log : List LogEntry
  /-- `OWNS_TRANSPORT`, fixed at construction (R9, R212). -/
  ownsTransport : Bool
  /-- Device 1's hidden state, as far as the spec gives it (R34 to R36). -/
  dev1 : Device
  /-- Device 2's hidden state, as far as the spec gives it (R34 to R36). -/
  dev2 : Device
  /-- Input: the pending construction, INIT's arguments (R210). -/
  construct : Option Construction
  /-- Input: the request port, oldest first (R5, R80, R196). -/
  requests : List RequestRecord
  /-- Input: the transport's answers, in the order it gives them (R5, R121). -/
  answers : List Answer
  /-- Input: what happens at the devices outside the core's transfers, oldest first (R67, U12). -/
  external : List ExternalEvent
  /-- Output: the transport calls other than `transfer`, in order (R194). -/
  calls : List AdapterCall
deriving DecidableEq, Repr

/-- A device about which nothing is known (R37: "unknown at INIT"). -/
def Device.unknown : Device := { latch := .unknown, regs := [] }

/-- The state a successful INIT leaves (R37, R210), with nothing presented at any interface. The topology, the handle and
`ownsTransport` are arguments of the construction: the values here are the model's choice (log 6), and no statement rests
on them. -/
def State.reset : State where
  topo := .daisyChained
  hdl0 := 0
  hdl1 := 0
  hdl2 := 0
  life := .live
  phase := .idle
  cur := none
  stage := none
  stat1 := 0xFFFF
  stat2 := 0xFFFF
  buf := ⟨0, 0, 0, 0⟩
  len := 4
  rdval1 := 0
  rdval2 := 0
  xferOut := none
  res := .none
  log := []
  ownsTransport := false
  dev1 := Device.unknown
  dev2 := Device.unknown
  construct := none
  requests := []
  answers := []
  external := []
  calls := []

end Sys2Proof.Machine
end

