-- ==== Sys2Proof/Machine/Operands.lean ====
section
/-! DEFINITION. The operands of the requests: device, address and relay checks (R181 to R183, R186), relay selections
(R160 to R162), the CTL computation (R164), and the operands of a request that uses the bus. -/

namespace Sys2Proof.Machine

/-- `CTL_ADDR` (R163, D4). -/
def ctlAddr : Byte := 7

/-- The device of a validated device id (R183: 1 or 2). -/
def devOf (dev : Byte) : Dev := if dev = 2 then .d2 else .d1

/-! ### Relay selections -/

/-- `1 <= r <= 8` (R162, R183). -/
def validRelay (r : Byte) : Bool := decide (1 ≤ r.toNat) && decide (r.toNat ≤ Config.nRelay)

/-- `1 << (r-1)` (R160). -/
def relayBit (r : Byte) : Byte := (1 : Byte) <<< (r.toNat - 1)

/-- The mask of a Boolean sequence whose first element is relay `k` and whose next ones count down (R161). -/
def boolsMask : Nat → List Bool → Byte
  | _, [] => 0
  | k, b :: bs => (if b then (1 : Byte) <<< (k - 1) else 0) ||| boolsMask (k - 1) bs

/-- The mask of a list of relay numbers (R161): an OR, so a duplicate changes nothing and the empty list gives 0x00. -/
def listMask : List Byte → Byte
  | [] => 0
  | r :: rs => relayBit r ||| listMask rs

/-- `normalise` (R161). -/
def normalise : Selection → Except ErrorKind Byte
  | .mask m => .ok m
  | .bools bs => if bs.length = Config.nRelay then .ok (boolsMask Config.nRelay bs) else .error .invalidRelay
  | .list rs => if rs.all validRelay then .ok (listMask rs) else .error .invalidRelay

/-- The mask of a selection that has passed `normalise` (R165). -/
def maskOf (sel : Selection) : Byte :=
  match normalise sel with
  | .ok m => m
  | .error _ => 0

/-- `setBits` and `clearBits` (R164). -/
def relayApply (f : RelayFn) (v m : Byte) : Byte :=
  match f with
  | .setBits => v ||| m
  | .clearBits => v &&& ~~~m

/-! ### Validation -/

/-- R182. -/
def checkTopology (topo : Topology) : Option ErrorKind :=
  match topo with
  | .independent => some .modeViolation
  | .daisyChained => none

/-- R183. -/
def checkDevice (dev : Byte) : Option ErrorKind := if dev = 1 ∨ dev = 2 then none else some .invalidDevice

/-- R183. -/
def checkAddress (a : Byte) : Option ErrorKind := if validAddress a.toNat then none else some .invalidAddress

/-- R162, R183. -/
def checkRelay (r : Byte) : Option ErrorKind :=
  match normalise (.list [r]) with
  | .ok _ => none
  | .error k => some k

/-- R183. -/
def checkSelection (sel : Selection) : Option ErrorKind :=
  match normalise sel with
  | .ok _ => none
  | .error k => some k

/-- The first check that fails, in the order listed (R186). -/
def firstError : List (Option ErrorKind) → Option ErrorKind
  | [] => none
  | some k :: _ => some k
  | none :: rest => firstError rest

/-- The checks of each request (R181), in the order of R186. A device word is checked by no rule of the core. -/
def validate (topo : Topology) : Instr → Option ErrorKind
  | .diag _ _ => none
  | .rd _ _ _ => none
  | .rst _ _ _ => none
  | .wr _ _ _ => none
  | .read1 dev a1 => firstError [checkDevice dev, checkAddress a1]
  | .read2 a1 a2 => firstError [checkTopology topo, checkAddress a1, checkAddress a2]
  | .write1 dev a1 _ => firstError [checkDevice dev, checkAddress a1]
  | .write2 a1 _ a2 _ => firstError [checkTopology topo, checkAddress a1, checkAddress a2]
  | .reset1 dev a1 => firstError [checkDevice dev, checkAddress a1]
  | .reset2 a1 a2 => firstError [checkTopology topo, checkAddress a1, checkAddress a2]
  | .relayOn dev relay => firstError [checkDevice dev, checkRelay relay]
  | .relayOff dev relay => firstError [checkDevice dev, checkRelay relay]
  | .relaysOn dev sel => firstError [checkDevice dev, checkSelection sel]
  | .relaysOff dev sel => firstError [checkDevice dev, checkSelection sel]
  | .status dev => firstError [checkDevice dev]
  | .health dev relay => firstError [checkDevice dev, checkRelay relay]
  | .teardown => none

/-! ### What a request does on the bus -/

/-- The request that uses the bus and its operands (R124 to R129, R165, R167 to R170); none for the queries, TEARDOWN and
device words. -/
def jobOf : Instr → Option Job
  | .read1 dev a1 => some (.readOne (devOf dev) a1)
  | .read2 a1 a2 => some (.readPair a1 a2)
  | .write1 dev a1 v1 => some (.writeOne (devOf dev) a1 v1)
  | .write2 a1 v1 a2 v2 => some (.writePair a1 v1 a2 v2)
  | .reset1 dev a1 => some (.resetOne (devOf dev) a1)
  | .reset2 a1 a2 => some (.resetPair a1 a2)
  | .relayOn dev relay => some (.relay (devOf dev) (maskOf (.list [relay])) .setBits)
  | .relayOff dev relay => some (.relay (devOf dev) (maskOf (.list [relay])) .clearBits)
  | .relaysOn dev sel => some (.relay (devOf dev) (maskOf sel) .setBits)
  | .relaysOff dev sel => some (.relay (devOf dev) (maskOf sel) .clearBits)
  | .diag _ _ => none
  | .rd _ _ _ => none
  | .rst _ _ _ => none
  | .wr _ _ _ => none
  | .status _ => none
  | .health _ _ => none
  | .teardown => none

/-- The device or devices a request addresses: whose `stat` it writes (R123). -/
def jobTarget : Job → Target
  | .readOne d _ => .one d
  | .readPair _ _ => .both
  | .writeOne d _ _ => .one d
  | .writePair _ _ _ _ => .both
  | .resetOne d _ => .one d
  | .resetPair _ _ => .both
  | .relay d _ _ => .one d

end Sys2Proof.Machine
end

