-- ==== Sys2Proof/Machine/Codec.lean ====
section
/-! DEFINITION. The Frame Codec (40_frame_codec.md): the daisy-chain multiplexer and the decoding of received frames. -/

namespace Sys2Proof.Machine

/-- R77. -/
def cmdPos : Topology → Dev → Nat
  | .independent, _ => 0
  | .daisyChained, .d1 => 2
  | .daisyChained, .d2 => 0

/-- R77. -/
def dataPos : Topology → Dev → Nat
  | .independent, _ => 1
  | .daisyChained, .d1 => 3
  | .daisyChained, .d2 => 1

/-- The data byte of a command: the value for WR, 0x00 otherwise (R78). -/
def dataByte (op : Opcode) (v : Byte) : Byte :=
  match op with
  | .wr => v
  | .diag => 0x00
  | .rd => 0x00
  | .rst => 0x00

/-- R103. The arguments are validated before the codec is reached, so the assembly formula stands without its guard. -/
def encodeSingleFrame (topo : Topology) (op : Opcode) (d : Dev) (a v : Byte) : Frame :=
  match topo with
  | .independent => [commandByte op a, dataByte op v]
  | .daisyChained =>
    (([0x00, 0x00, 0x00, 0x00] : Frame).set (cmdPos .daisyChained d) (commandByte op a)).set
      (dataPos .daisyChained d) (dataByte op v)

/-- R104. -/
def encodePairFrame (op : Opcode) (a1 v1 a2 v2 : Byte) : Frame :=
  [commandByte op a2, dataByte op v2, commandByte op a1, dataByte op v1]

/-- R105. -/
def diagFrame (topo : Topology) : Frame := List.replicate (Config.frameLen topo) 0x00

/-- Byte `i` of a frame (R11). Every index a rule names lies inside the frame. -/
def frameByte (f : Frame) (i : Nat) : Byte := f.getD i 0x00

/-- R106: the command-position byte is bits 15:8 (R53). -/
def decodeStatus (topo : Topology) (d : Dev) (rx : Frame) : Half :=
  ((frameByte rx (cmdPos topo d)).setWidth 16 <<< 8) ||| (frameByte rx (dataPos topo d)).setWidth 16

/-- R107. -/
def decodeRegisterValue (topo : Topology) (d : Dev) (rx : Frame) : Byte := frameByte rx (dataPos topo d)

end Sys2Proof.Machine
end

