-- ==== Sys2Proof/Machine/Flags.lean ====
section
/-! DEFINITION. The core has no flags or condition codes (R33). What stands in their place is the health code of a relay,
two bits of a diagnosis word (R152 to R154). -/

namespace Sys2Proof.Machine

/-- Bits `[2r-1 : 2r-2]` of a diagnosis word: relay `r`'s health code (R152). -/
def healthCode (w : Half) (r : Byte) : Code2 := w.extractLsb' (2 * r.toNat - 2) 2

/-- The meaning of a health code (R154). -/
inductive Health where
  | normal
  | overload
  | openLoad
  | shortToGround
deriving DecidableEq, Repr

/-- R154. -/
def healthMeaning (c : Code2) : Health :=
  if c = 0b11 then .normal else if c = 0b10 then .overload else if c = 0b01 then .openLoad else .shortToGround

end Sys2Proof.Machine
end

