-- ==== Sys2Proof/Machine/Ops.lean ====
section
/-! DEFINITION. The named operations over the state that the instructions and the sequencer share: the device register
space, the Diagnostic Status Store, the frame register, the transfer primitive (R121), raising an error and returning a
result (R12, R184), and what a delivered command does to a device (R36, R58). -/

namespace Sys2Proof.Machine

/-- The outcome of a step of this machine. -/
abbrev Step := Host.Outcome State Fault Refusal

/-! ### The device register space -/

/-- The byte last put at `a`; none: unknown. -/
def Memory.read : Memory → Nat → Option Byte
  | [], _ => none
  | (k, v) :: m, a => if a = k then some v else Memory.read m a

/-- Writes `v` at `a` and keeps the addresses strictly rising. -/
def Memory.write : Memory → Nat → Byte → Memory
  | [], a, v => [(a, v)]
  | (k, w) :: m, a, v =>
    if a < k then (a, v) :: (k, w) :: m
    else if a = k then (a, v) :: m
    else (k, w) :: Memory.write m a v

/-- The canonical form: addresses strictly rising. An unlisted address reads as no value, so no listed byte equals it. -/
def Memory.wf : Memory → Bool
  | [] => true
  | [_] => true
  | (a, _) :: (b, w) :: m => decide (a < b) && Memory.wf ((b, w) :: m)

/-- Every listed address is an address of the register space, 1..8 (R34, R59). -/
def Memory.inSpace (m : Memory) : Bool := m.all fun c => decide (1 ≤ c.1) && decide (c.1 ≤ 8)

/-! ### Devices (R36, R58, R220 to R222, R225, R227) -/

/-- An address with a name, 1..7 (R34). What a device does with address 8 is not given (R227, U4), nor with an address
the core never sends (R83 c). -/
def namedAddress (a : Addr6) : Bool := decide (1 ≤ a.toNat) && decide (a.toNat ≤ 7)

/-- DIAG: the device holds a status word afterwards (R36). A data byte the core never sends: unknown (U6). -/
def Device.onDiag (data : Byte) (x : Device) : Device :=
  if data = 0 then { x with latch := .status } else Device.unknown

/-- RD: the device holds the addressed register's value latched (R36, R58 b). -/
def Device.onRead (a : Addr6) (data : Byte) (x : Device) : Device :=
  if namedAddress a && data == 0 then { x with latch := .register a } else Device.unknown

/-- WR: the addressed register changes (R58 c); the device holds a status word afterwards (R36). -/
def Device.onWrite (a : Addr6) (v : Byte) (x : Device) : Device :=
  if namedAddress a then { latch := .status, regs := x.regs.write a.toNat v } else Device.unknown

/-- RST resets the device in a way the spec does not give (R58 d), and what it shifts out next is not given (R222, U5):
whatever its address and data byte are, nothing is known of the device afterwards. -/
def Device.onReset (_a : Addr6) (_data : Byte) (_x : Device) : Device := Device.unknown

/-- A device word arrives: the command byte selects what the device does (R70, R71). An opcode-00 byte other than 0x00 is
never sent by the core (R83 b, c): unknown. -/
def Device.receive (cmd data : Byte) (x : Device) : Device :=
  match decodeCommand cmd with
  | (.diag, a) => if a = 0 then x.onDiag data else Device.unknown
  | (.rd, a) => x.onRead a data
  | (.rst, a) => x.onReset a data
  | (.wr, a) => x.onWrite a data

namespace State

def device (s : State) : Dev → Device
  | .d1 => s.dev1
  | .d2 => s.dev2

def setDevice (s : State) (d : Dev) (x : Device) : State :=
  match d with
  | .d1 => { s with dev1 := x }
  | .d2 => { s with dev2 := x }

/-- A device word reaches its device from another bus master (R67). One that is no row of the opcode table has its effect
here too: what the device does is not given (R83 c), so nothing is known of it afterwards (U12). -/
def receiveWord (s : State) (w : WireWord) : State :=
  s.setDevice w.dev ((s.device w.dev).receive w.cmd w.data)

/-- What happens at a device outside the core's transfers: the device changes, nothing of the core does (R67, U12). -/
def externalChange (s : State) : ExternalEvent → State
  | .word w => s.receiveWord w
  | .register d k v => s.setDevice d { s.device d with regs := (s.device d).regs.write (k.val + 1) v }
  | .latch d l => s.setDevice d { s.device d with latch := l }
  | .reset d => s.setDevice d Device.unknown

/-- Does a transfer for `t` reach device `d`? Each device has its own chip-select when Independent; one chip-select drives
both when DaisyChained (R21, R75, R76). -/
def reaches (topo : Topology) (t : Target) (d : Dev) : Bool :=
  match topo, t with
  | .daisyChained, _ => true
  | .independent, .one d' => d' == d
  | .independent, .both => true

/-- What a device becomes when the frame `tx` has been exchanged with it: its word of the frame (R77) takes effect. -/
def deliveredTo (s : State) (tx : Frame) (d : Dev) : Device :=
  (s.device d).receive (frameByte tx (cmdPos s.topo d)) (frameByte tx (dataPos s.topo d))

/-- A frame exchanged with `ok` takes effect on every device it reaches. -/
def deliver (s : State) (t : Target) (tx : Frame) : State :=
  { s with
    dev1 := if reaches s.topo t .d1 then s.deliveredTo tx .d1 else s.dev1
    dev2 := if reaches s.topo t .d2 then s.deliveredTo tx .d2 else s.dev2 }

/-- After a failed transfer, what the devices on it hold is not known (R221, U10, U11). -/
def forget (s : State) (t : Target) : State :=
  { s with
    dev1 := if reaches s.topo t .d1 then Device.unknown else s.dev1
    dev2 := if reaches s.topo t .d2 then Device.unknown else s.dev2 }

/-! ### The Diagnostic Status Store -/

/-- `stat[d]` (R26). -/
def stat (s : State) : Dev → Half
  | .d1 => s.stat1
  | .d2 => s.stat2

/-- `stat[d] <- w`: all 16 bits at once (R27). -/
def setStat (s : State) (d : Dev) (w : Half) : State :=
  match d with
  | .d1 => { s with stat1 := w }
  | .d2 => { s with stat2 := w }

/-- The status update of R123 for the devices a request addresses. -/
def updateStat (s : State) (t : Target) (rx : Frame) : State :=
  match t with
  | .one d => s.setStat d (decodeStatus s.topo d rx)
  | .both => (s.setStat .d1 (decodeStatus s.topo .d1 rx)).setStat .d2 (decodeStatus s.topo .d2 rx)

/-! ### Transfers (R121) -/

/-- `handleFor(d)` (R22). -/
def handleFor (s : State) (d : Dev) : Handle :=
  match s.topo, d with
  | .independent, .d1 => s.hdl1
  | .independent, .d2 => s.hdl2
  | .daisyChained, _ => s.hdl0

/-- The handle of a request (R121): the addressed device's, or `hdl[0]` for a pair request. -/
def handleOf (s : State) : Target → Handle
  | .one d => s.handleFor d
  | .both => s.hdl0

/-- `buf[0..len-1] <- f` for a frame of `len` bytes (R28). -/
def loadBuf (q : Quad) (f : Frame) : Quad :=
  { b0 := f.getD 0 q.b0, b1 := f.getD 1 q.b1, b2 := f.getD 2 q.b2, b3 := f.getD 3 q.b3 }

/-- The issue part of R121. -/
def issue (s : State) (h : Handle) (tx : Frame) : State :=
  { s with buf := loadBuf s.buf tx, xferOut := some (h, tx) }

/-- The received frame of an answer: the first `len` bytes of the buffer (R121). -/
def received (s : State) (a : Answer) : Frame := [a.rx.b0, a.rx.b1, a.rx.b2, a.rx.b3].take s.len

/-- The completion part of R121 on `ok(rx)`: the log entry, `buf`, and the effect on the devices the frame reached. -/
def completeOk (s : State) (t : Target) (h : Handle) (tx : Frame) (a : Answer) (rest : List Answer) : State :=
  let s' := s.deliver t tx
  { s' with
    answers := rest
    log := s.log ++ [{ handle := h, tx, outcome := .ok (s.received a) }]
    xferOut := none
    buf := loadBuf s.buf (s.received a) }

/-- The completion part of R121 on `fail(c)`: the log entry; `buf` is unspecified, so it takes whatever the answer's free
buffer bytes are (U9). -/
def completeFail (s : State) (t : Target) (h : Handle) (tx : Frame) (a : Answer) (rest : List Answer) : State :=
  let s' := s.forget t
  { s' with
    answers := rest
    log := s.log ++ [{ handle := h, tx, outcome := .fail a.result }]
    xferOut := none
    buf := a.rx }

/-! ### Ending a request -/

/-- `res <- r` and nothing else (R155, R185). -/
def setRes (s : State) (r : Result) : State := { s with res := r }

/-- Taking an error, `raise E(info)` (R184): where every error of a request that is on the bus goes. The saved and changed
state is `res`, `phase`, `cur` and `stage`; there is no vector and no return from it, the port is simply ready again. -/
def raise (s : State) (k : ErrorKind) (info : Option Int) : State :=
  { s with res := .err k info, phase := .idle, cur := none, stage := none }

/-- The end of a request that succeeded (R12, R120): `res <- Ok(payload)`, back to Idle. -/
def finishOk (s : State) (p : Payload) : State :=
  { s with res := .ok p, phase := .idle, cur := none, stage := none }

/-! ### ACCEPT (R120) -/

/-- ACCEPT of the request `i`, whose effect once it is validated is `start`. Outside Live the model refuses (R195); while a
request is in progress the port holds it and nothing changes (R196); a failed check writes `res` alone (R120, R185). -/
def accept (s : State) (i : Instr) (start : State → State) : Step :=
  match s.life, s.phase with
  | .live, .idle =>
    match validate s.topo i with
    | some k => .next (s.setRes (.err k none))
    | none => .next (start s)
  | .live, .commandIssued => .next s
  | .live, .resultPending => .next s
  | .live, .resultAvailable => .next s
  | .unconstructed, _ => .refused .notLive
  | .tornDown, _ => .refused .notLive

/-- `cur <- req`, the first transfer is issued, `phase <- CommandIssued` (R120). -/
def startRequest (s : State) (i : Instr) (h : Handle) (tx : Frame) : State :=
  { s.issue h tx with cur := some i, phase := .commandIssued }

/-- As `startRequest`, with `stage <- ReadStage`: a relay request starts by reading CTL of its device (R120, R165). -/
def startRelay (s : State) (i : Instr) (d : Dev) : State :=
  { s.startRequest i (s.handleFor d) (encodeSingleFrame s.topo .rd d ctlAddr 0x00) with stage := some .readStage }

end State

end Sys2Proof.Machine
end

