-- ==== Sys2Proof/Machine/Access.lean ====
section
/-! DEFINITION. The requests of the Register Access Engine: ACCEPT of READ1, READ2, WRITE1, WRITE2, RESET1, RESET2
(R124 to R129). Their later steps are the post-actions of Machine/Engine.lean. -/

namespace Sys2Proof.Machine

/-- READ1 `d, a` (R124): `RD a / 0x00` in device `d`'s half. -/
def execRead1 (dev a1 : Byte) (s : State) : Step :=
  s.accept (.read1 dev a1) fun s =>
    s.startRequest (.read1 dev a1) (s.handleFor (devOf dev)) (encodeSingleFrame s.topo .rd (devOf dev) a1 0x00)

/-- READ2 `a1, a2` (R125): `[RD a2, 0x00, RD a1, 0x00]` on `hdl[0]`. -/
def execRead2 (a1 a2 : Byte) (s : State) : Step :=
  s.accept (.read2 a1 a2) fun s =>
    s.startRequest (.read2 a1 a2) s.hdl0 (encodePairFrame .rd a1 0x00 a2 0x00)

/-- WRITE1 `d, a, v` (R126): `WR a / v` in device `d`'s half. -/
def execWrite1 (dev a1 v1 : Byte) (s : State) : Step :=
  s.accept (.write1 dev a1 v1) fun s =>
    s.startRequest (.write1 dev a1 v1) (s.handleFor (devOf dev)) (encodeSingleFrame s.topo .wr (devOf dev) a1 v1)

/-- WRITE2 `a1, v1, a2, v2` (R127): `[WR a2, v2, WR a1, v1]` on `hdl[0]`. -/
def execWrite2 (a1 v1 a2 v2 : Byte) (s : State) : Step :=
  s.accept (.write2 a1 v1 a2 v2) fun s =>
    s.startRequest (.write2 a1 v1 a2 v2) s.hdl0 (encodePairFrame .wr a1 v1 a2 v2)

/-- RESET1 `d, a` (R128): `RST a / 0x00` in device `d`'s half. -/
def execReset1 (dev a1 : Byte) (s : State) : Step :=
  s.accept (.reset1 dev a1) fun s =>
    s.startRequest (.reset1 dev a1) (s.handleFor (devOf dev)) (encodeSingleFrame s.topo .rst (devOf dev) a1 0x00)

/-- RESET2 `a1, a2` (R129): `[RST a2, 0x00, RST a1, 0x00]` on `hdl[0]`. -/
def execReset2 (a1 a2 : Byte) (s : State) : Step :=
  s.accept (.reset2 a1 a2) fun s =>
    s.startRequest (.reset2 a1 a2) s.hdl0 (encodePairFrame .rst a1 0x00 a2 0x00)

end Sys2Proof.Machine
end

