-- ==== Sys2Proof/Machine/Lifecycle.lean ====
section
/-! DEFINITION. INIT (R210) and TEARDOWN (R212). -/

namespace Sys2Proof.Machine

namespace State

/-- Every element at its value of R37, once the handles are held. The devices are not reset, and the interfaces keep what
stands at them. -/
def constructed (s : State) (c : Construction) (h0 h1 h2 : Handle) : State :=
  { s with
    topo := c.topology
    hdl0 := h0
    hdl1 := h1
    hdl2 := h2
    life := .live
    phase := .idle
    cur := none
    stage := none
    stat1 := Config.statReset
    stat2 := Config.statReset
    buf := ⟨0x00, 0x00, 0x00, 0x00⟩
    len := Config.frameLen c.topology
    rdval1 := 0x00
    rdval2 := 0x00
    xferOut := none
    res := .none
    log := []
    ownsTransport := c.ownsTransport }

/-- "fail INIT" (R188, R210): `life` stays Unconstructed and the caller receives InitializationFailure with the failing
openChannel result. -/
def failInit (s : State) (c : Construction) (code : Int) : State :=
  { s with topo := c.topology, res := .err .initializationFailure (some code) }

/-- A transport call other than `transfer` is made (R194). -/
def call (s : State) (c : AdapterCall) : State := { s with calls := s.calls ++ [c] }

/-- The procedure of R210. -/
def init (s : State) (c : Construction) : State :=
  match c.topology with
  | .independent =>
    let s1 := s.call (.openChannel c.ch1 c.baud c.spiMode c.firstOpen)
    match c.firstOpen with
    | .failure e => s1.failInit c e
    | .handle r1 =>
      let s2 := s1.call (.openChannel c.ch2 c.baud c.spiMode c.secondOpen)
      match c.secondOpen with
      | .failure e => (s2.call (.closeChannel r1)).failInit c e
      | .handle r2 => s2.constructed c 0 r1 r2
  | .daisyChained =>
    let s1 := s.call (.openChannel c.chDC c.baud c.spiMode c.firstOpen)
    match c.firstOpen with
    | .failure e => s1.failInit c e
    | .handle r0 => s1.constructed c r0 0 0

/-- The handles an instance holds, in order (R22). -/
def handles (s : State) : List Handle :=
  match s.topo with
  | .independent => [s.hdl1, s.hdl2]
  | .daisyChained => [s.hdl0]

/-- The procedure of R212: close every handle, shut the transport down if the instance owns it, `life <- TornDown`. It ends
a request, so `res` is written (R31): `Ok` with no payload, as R212 gives none (log 11). -/
def teardown (s : State) : State :=
  { s with
    calls := s.calls ++ s.handles.map .closeChannel ++ (if s.ownsTransport then [.shutdown] else [])
    life := .tornDown
    res := .ok .unit }

end State

/-- TEARDOWN (R212). -/
def execTeardown (s : State) : Step := s.accept .teardown State.teardown

end Sys2Proof.Machine
end

