-- ==== Sys2Proof/Machine/Relay.lean ====
section
/-! DEFINITION. The relay requests (43_relay_control.md): ACCEPT starts the read stage, `RD 7 / 0x00` to the device
(R163, R165). The selection's mask and the function, set or clear, act at the write stage (`jobOf`, `State.writeStage`). -/

namespace Sys2Proof.Machine

/-- RELAY_ON `d, r` (R167). -/
def execRelayOn (dev relay : Byte) (s : State) : Step :=
  s.accept (.relayOn dev relay) fun s => s.startRelay (.relayOn dev relay) (devOf dev)

/-- RELAY_OFF `d, r` (R168). -/
def execRelayOff (dev relay : Byte) (s : State) : Step :=
  s.accept (.relayOff dev relay) fun s => s.startRelay (.relayOff dev relay) (devOf dev)

/-- RELAYS_ON `d, sel` (R169). -/
def execRelaysOn (dev : Byte) (sel : Selection) (s : State) : Step :=
  s.accept (.relaysOn dev sel) fun s => s.startRelay (.relaysOn dev sel) (devOf dev)

/-- RELAYS_OFF `d, sel` (R170). -/
def execRelaysOff (dev : Byte) (sel : Selection) (s : State) : Step :=
  s.accept (.relaysOff dev sel) fun s => s.startRelay (.relaysOff dev sel) (devOf dev)

end Sys2Proof.Machine
end

