-- ==== Sys2Proof/Machine/StatusStore.lean ====
section
/-! DEFINITION. The queries of the Diagnostic Status Store (42_status_store.md). They complete within ACCEPT and write
`res` alone (R155). -/

namespace Sys2Proof.Machine

/-- STATUS `d` (R151). -/
def execStatus (dev : Byte) (s : State) : Step :=
  s.accept (.status dev) fun s => s.setRes (.ok (.word (s.stat (devOf dev))))

/-- HEALTH `d, r` (R153). -/
def execHealth (dev relay : Byte) (s : State) : Step :=
  s.accept (.health dev relay) fun s => s.setRes (.ok (.code (healthCode (s.stat (devOf dev)) relay)))

end Sys2Proof.Machine
end

