-- ==== Sys2Proof/Machine/Wire.lean ====
section
/-! DEFINITION. The four wire command bytes as instructions of the device that receives them (R36, R58, R70 to R74). The
core's own transfers have the same effect through `State.deliver`. A device word that stands alone comes from another bus
master (R67, U12); it reaches one device and changes nothing of the core. -/

namespace Sys2Proof.Machine

/-- DIAG (R73). -/
def execDiag (d : Dev) (data : Byte) (s : State) : Step :=
  .next (s.setDevice d ((s.device d).onDiag data))

/-- RD (R58 b, R124). -/
def execRd (d : Dev) (a : Addr6) (data : Byte) (s : State) : Step :=
  .next (s.setDevice d ((s.device d).onRead a data))

/-- RST (R58 d, R128). -/
def execRst (d : Dev) (a : Addr6) (data : Byte) (s : State) : Step :=
  .next (s.setDevice d ((s.device d).onReset a data))

/-- WR (R58 c, R126). -/
def execWr (d : Dev) (a : Addr6) (v : Byte) (s : State) : Step :=
  .next (s.setDevice d ((s.device d).onWrite a v))

end Sys2Proof.Machine
end

