-- ==== Sys2Proof/Machine/Dispatch.lean ====
section
/-! DEFINITION. One arm per instruction. -/

namespace Sys2Proof.Machine

def exec (i : Instr) (s : State) : Host.Outcome State Fault Refusal :=
  match i with
  | .diag d data => Sys2Proof.Machine.execDiag d data s
  | .rd d a data => Sys2Proof.Machine.execRd d a data s
  | .rst d a data => Sys2Proof.Machine.execRst d a data s
  | .wr d a v => Sys2Proof.Machine.execWr d a v s
  | .read1 dev a1 => Sys2Proof.Machine.execRead1 dev a1 s
  | .read2 a1 a2 => Sys2Proof.Machine.execRead2 a1 a2 s
  | .write1 dev a1 v1 => Sys2Proof.Machine.execWrite1 dev a1 v1 s
  | .write2 a1 v1 a2 v2 => Sys2Proof.Machine.execWrite2 a1 v1 a2 v2 s
  | .reset1 dev a1 => Sys2Proof.Machine.execReset1 dev a1 s
  | .reset2 a1 a2 => Sys2Proof.Machine.execReset2 a1 a2 s
  | .relayOn dev relay => Sys2Proof.Machine.execRelayOn dev relay s
  | .relayOff dev relay => Sys2Proof.Machine.execRelayOff dev relay s
  | .relaysOn dev sel => Sys2Proof.Machine.execRelaysOn dev sel s
  | .relaysOff dev sel => Sys2Proof.Machine.execRelaysOff dev sel s
  | .status dev => Sys2Proof.Machine.execStatus dev s
  | .health dev relay => Sys2Proof.Machine.execHealth dev relay s
  | .teardown => Sys2Proof.Machine.execTeardown s

end Sys2Proof.Machine
end

