-- ==== Sys2Proof/Machine/Engine.lean ====
section
/-! DEFINITION. The sequencer of the Register Access Engine (R120): ANSWER with its post-actions, FINISH, and the fetch that
says which step the machine takes next. -/

namespace Sys2Proof.Machine

namespace State

/-- Post-action (a) of R120: update `stat`, issue the follow-up DIAG frame on the same handle, `phase <- ResultPending`. -/
def followUp (s : State) (t : Target) (h : Handle) (rx : Frame) : State :=
  { (s.updateStat t rx).issue h (diagFrame s.topo) with phase := .resultPending }

/-- Post-action (b) of R120: update `stat` and end the request with its payload. -/
def completeCommand (s : State) (t : Target) (rx : Frame) (p : Payload) : State :=
  (s.updateStat t rx).finishOk p

/-- Post-action (c) of R120 for one device: `rdval1`, no `stat` write (R123). -/
def latchOne (s : State) (d : Dev) (rx : Frame) : State :=
  { s with rdval1 := decodeRegisterValue s.topo d rx, phase := .resultAvailable }

/-- Post-action (c) of R120 for READ2: both values, and `stat` again (R123, R125). -/
def latchPair (s : State) (rx : Frame) : State :=
  let s' := s.updateStat .both rx
  { s' with
    rdval1 := decodeRegisterValue s.topo .d1 rx
    rdval2 := decodeRegisterValue s.topo .d2 rx
    phase := .resultAvailable }

/-- The write stage of R165 begins: `new <- F(rdval1, m)` is sent to CTL. -/
def writeStage (s : State) (d : Dev) (m : Byte) (f : RelayFn) : State :=
  { s.issue (s.handleFor d) (encodeSingleFrame s.topo .wr d ctlAddr (relayApply f s.rdval1 m)) with
    stage := some .writeStage
    phase := .commandIssued }

/-- The post-action of the first transfer of a stage (R120 a, b), by request; `s` has the transfer completed. -/
def afterCommand (s : State) (j : Job) (h : Handle) (rx : Frame) : Step :=
  match j with
  | .readOne d _ => .next (s.followUp (.one d) h rx)
  | .readPair _ _ => .next (s.followUp .both h rx)
  | .writeOne d _ _ => .next (s.completeCommand (.one d) rx .unit)
  | .writePair _ _ _ _ => .next (s.completeCommand .both rx .unit)
  | .resetOne d _ => .next (s.completeCommand (.one d) rx .unit)
  | .resetPair _ _ => .next (s.completeCommand .both rx .unit)
  | .relay d m f =>
    match s.stage with
    | some .readStage => .next (s.followUp (.one d) h rx)
    | some .writeStage => .next (s.completeCommand (.one d) rx (.byte (relayApply f s.rdval1 m)))
    | none => .fault .noStepEnabled

/-- The post-action of a follow-up transfer (R120 c), by request. -/
def afterFollowUp (s : State) (j : Job) (rx : Frame) : Step :=
  match j with
  | .readOne d _ => .next (s.latchOne d rx)
  | .readPair _ _ => .next (s.latchPair rx)
  | .relay d _ _ => .next (s.latchOne d rx)
  | .writeOne _ _ _ => .fault .noStepEnabled
  | .writePair _ _ _ _ => .fault .noStepEnabled
  | .resetOne _ _ => .fault .noStepEnabled
  | .resetPair _ _ => .fault .noStepEnabled

/-- ANSWER (R120, R121) for the bus request `j`: the outstanding transfer `(h, tx)` is answered by `a`. -/
def answerWith (s : State) (j : Job) (h : Handle) (tx : Frame) (a : Answer) (rest : List Answer) : Step :=
  if a.result < 0 then
    .next ((s.completeFail (jobTarget j) h tx a rest).raise .transportFailure (some a.result))
  else
    match s.phase with
    | .commandIssued => (s.completeOk (jobTarget j) h tx a rest).afterCommand j h (s.received a)
    | .resultPending => (s.completeOk (jobTarget j) h tx a rest).afterFollowUp j (s.received a)
    | .idle => .fault .noStepEnabled
    | .resultAvailable => .fault .noStepEnabled

/-- ANSWER. While the transport has not answered, the core holds (R122, R226). -/
def answer (s : State) : Step :=
  match s.xferOut, s.cur.bind jobOf, s.answers with
  | some (h, tx), some j, a :: rest => s.answerWith j h tx a rest
  | some _, some _, [] => .next s
  | some _, none, _ => .fault .noStepEnabled
  | none, _, _ => .fault .noStepEnabled

/-- FINISH (R120). -/
def finish (s : State) : Step :=
  match s.cur.bind jobOf with
  | some (.readOne _ _) => .next (s.finishOk (.byte s.rdval1))
  | some (.readPair _ _) => .next (s.finishOk (.pair s.rdval1 s.rdval2))
  | some (.relay d m f) =>
    match s.stage with
    | some .readStage => .next (s.writeStage d m f)
    | some .writeStage => .fault .noStepEnabled
    | none => .fault .noStepEnabled
  | some (.writeOne _ _ _) => .fault .noStepEnabled
  | some (.writePair _ _ _ _) => .fault .noStepEnabled
  | some (.resetOne _ _) => .fault .noStepEnabled
  | some (.resetPair _ _) => .fault .noStepEnabled
  | none => .fault .noStepEnabled

end State

/-- What the fetch finds: an instruction to execute, with the state in which it has left its port, or the outcome of a step
that executes none. -/
inductive Fetched where
  | run (i : Instr) (s : State)
  | done (o : Step)

/-- The request port (R61 a, R83, R196): the oldest record leaves the port and is decoded. An empty port: the core waits. -/
def fetchRequest (s : State) : Fetched :=
  match s.requests with
  | [] => .done (.next s)
  | r :: rs =>
    match decodeRequest r with
    | .ok i => .run i { s with requests := rs }
    | .error e => .done (.refused (.undefinedRequest e))

/-- Before INIT: a pending construction runs INIT (R210); a request is refused (R195). -/
def fetchUnconstructed (s : State) : Fetched :=
  match s.construct, s.requests with
  | some c, _ => .done (.next ({ s with construct := none }.init c))
  | none, [] => .done (.next s)
  | none, _ :: _ => .done (.refused .notLive)

/-- After TEARDOWN: a request is refused (R195). -/
def fetchTornDown (s : State) : Fetched :=
  match s.requests with
  | [] => .done (.next s)
  | _ :: _ => .done (.refused .notLive)

/-- An event at a device: a device word that spells a wire command is that instruction, executed at the device; every other
event changes its device (R67). -/
def fetchExternal (s : State) (e : ExternalEvent) : Fetched :=
  match e with
  | .word w =>
    match decodeWire w with
    | .ok i => .run i s
    | .error _ => .done (.next (s.receiveWord w))
  | .register d k v => .done (.next (s.externalChange (.register d k v)))
  | .latch d l => .done (.next (s.externalChange (.latch d l)))
  | .reset d => .done (.next (s.externalChange (.reset d)))

/-- Which step the machine takes. An event at a device goes first: it may land between any two steps (R67; log 16). -/
def fetch (s : State) : Fetched :=
  match s.external with
  | e :: es => fetchExternal { s with external := es } e
  | [] =>
    match s.life, s.phase with
    | .unconstructed, _ => fetchUnconstructed s
    | .tornDown, _ => fetchTornDown s
    | .live, .idle => fetchRequest s
    | .live, .commandIssued => .done s.answer
    | .live, .resultPending => .done s.answer
    | .live, .resultAvailable => .done s.finish

/-- Places a port word where the next fetch reads it. A request needs the core Live and Idle with no event at a device
ahead of it. -/
def placeWord (s : State) : PortWord → State
  | .wire w => { s with external := .word w :: s.external }
  | .request r =>
    { s with
      requests := r :: s.requests
      external := []
      life := .live
      phase := .idle
      cur := none
      stage := none
      xferOut := none }

/-- The port word of a word of the opcode table is placed where the next fetch reads it. -/
def placeTableWord (s : State) (nbits w : Nat) : State :=
  match parse (bytesOfTableWord nbits w) with
  | .ok p => placeWord s p
  | .error _ => s

end Sys2Proof.Machine
end

