-- ==== Sys2Proof/Safety.lean ====
section
/-! DEFINITION. The terms in which claims about the machine are stated: when it accepts a request, what an instance keeps,
the sequencer's invariant (R24, R25, R28, R30), the frames the core may send (R55, R83 b), and the pipeline invariant
(R24, R36). -/

namespace Sys2Proof.Machine

/-- The request port is ready (R120): Live and Idle. -/
def State.ready (s : State) : Bool := s.life == .live && s.phase == .idle

/-- Is the instruction a request (R81), not a device word? -/
def isRequest : Instr → Bool
  | .diag _ _ => false
  | .rd _ _ _ => false
  | .rst _ _ _ => false
  | .wr _ _ _ => false
  | .read1 _ _ => true
  | .read2 _ _ => true
  | .write1 _ _ _ => true
  | .write2 _ _ _ _ => true
  | .reset1 _ _ => true
  | .reset2 _ _ => true
  | .relayOn _ _ => true
  | .relayOff _ _ => true
  | .relaysOn _ _ => true
  | .relaysOff _ _ => true
  | .status _ => true
  | .health _ _ => true
  | .teardown => true

/-- The pair requests (R125, R127, R129). -/
def isPairRequest : Instr → Bool
  | .diag _ _ => false
  | .rd _ _ _ => false
  | .rst _ _ _ => false
  | .wr _ _ _ => false
  | .read1 _ _ => false
  | .read2 _ _ => true
  | .write1 _ _ _ => false
  | .write2 _ _ _ _ => true
  | .reset1 _ _ => false
  | .reset2 _ _ => true
  | .relayOn _ _ => false
  | .relayOff _ _ => false
  | .relaysOn _ _ => false
  | .relaysOff _ _ => false
  | .status _ => false
  | .health _ _ => false
  | .teardown => false

/-- The other device. -/
def otherDev : Dev → Dev
  | .d1 => .d2
  | .d2 => .d1

/-- What no request and no answer changes: the configuration of the instance (R21, R22, R9), and the interfaces other than
the request port, the transfer port and its history. -/
structure State.SameInstance (s t : State) : Prop where
  topo : t.topo = s.topo
  hdl0 : t.hdl0 = s.hdl0
  hdl1 : t.hdl1 = s.hdl1
  hdl2 : t.hdl2 = s.hdl2
  life : t.life = s.life
  len : t.len = s.len
  ownsTransport : t.ownsTransport = s.ownsTransport
  construct : t.construct = s.construct
  external : t.external = s.external
  calls : t.calls = s.calls

/-- The sequencer at rest (R24, R25, R30). -/
structure State.Rests (t : State) : Prop where
  phase : t.phase = .idle
  cur : t.cur = none
  stage : t.stage = none
  xferOut : t.xferOut = none

/-! ### The sequencer's invariant -/

/-- The stage a request may be in while a command frame is outstanding (R25). -/
def stageFits (j : Job) (stage : Option Stage) : Bool :=
  match j with
  | .relay _ _ _ => stage == some .readStage || stage == some .writeStage
  | _ => stage == none

/-- The stage of a read that is pending or available (R25, R165); none of the other requests reads. -/
def readStageFits (j : Job) (stage : Option Stage) : Bool :=
  match j with
  | .readOne _ _ => stage == none
  | .readPair _ _ => stage == none
  | .relay _ _ _ => stage == some .readStage
  | _ => false

/-- The command frame of a request's current stage (R124 to R129, R165). -/
def commandFrame (topo : Topology) (stage : Option Stage) (rdval1 : Byte) : Job → Frame
  | .readOne d a => encodeSingleFrame topo .rd d a 0x00
  | .readPair a1 a2 => encodePairFrame .rd a1 0x00 a2 0x00
  | .writeOne d a v => encodeSingleFrame topo .wr d a v
  | .writePair a1 v1 a2 v2 => encodePairFrame .wr a1 v1 a2 v2
  | .resetOne d a => encodeSingleFrame topo .rst d a 0x00
  | .resetPair a1 a2 => encodePairFrame .rst a1 0x00 a2 0x00
  | .relay d m f =>
    if stage = some .writeStage then encodeSingleFrame topo .wr d ctlAddr (relayApply f rdval1 m)
    else encodeSingleFrame topo .rd d ctlAddr 0x00

/-- The sequencer registers fit together: Idle holds no request and no transfer (R24, R25, R30); in every other phase `cur`
is a validated request that uses the bus, the stage fits it, and the outstanding transfer, if the phase has one, is the one
its rule lists; and `len` is FRAME_LEN(topo) (R28). -/
def State.sequencerFits (s : State) : Bool :=
  s.len == Config.frameLen s.topo &&
  match s.phase, s.cur with
  | .idle, none => s.stage == none && s.xferOut == none
  | .idle, some _ => false
  | _, none => false
  | .commandIssued, some i =>
    match jobOf i with
    | none => false
    | some j =>
      s.life == .live && validate s.topo i == none && stageFits j s.stage &&
        s.xferOut == some (s.handleOf (jobTarget j), commandFrame s.topo s.stage s.rdval1 j)
  | .resultPending, some i =>
    match jobOf i with
    | none => false
    | some j =>
      s.life == .live && validate s.topo i == none && readStageFits j s.stage &&
        s.xferOut == some (s.handleOf (jobTarget j), diagFrame s.topo)
  | .resultAvailable, some i =>
    match jobOf i with
    | none => false
    | some j =>
      s.life == .live && validate s.topo i == none && readStageFits j s.stage && s.xferOut == none

/-- The canonical form of a device's register space: addresses rising, inside 1..8. -/
def Device.fits (x : Device) : Bool := Memory.wf x.regs && Memory.inSpace x.regs

/-- The invariant of the machine. Before INIT no element of the core exists (R37), so nothing is asked of it. -/
def State.inv (s : State) : Bool :=
  (s.life == .unconstructed || s.sequencerFits) && s.dev1.fits && s.dev2.fits

/-! ### Frames the core may send (R55, R72, R83 b) -/

/-- A command byte the core may emit: DIAG's 0x00, or RD, RST, WR with an address in 1..8. -/
def emittedCommand (b : Byte) : Bool :=
  b == 0x00 || ((decodeCommand b).1 != .diag && validAddress (decodeCommand b).2.toNat)

/-- A frame the core may send: FRAME_LEN(topo) bytes, an emitted command byte at each command position. -/
def emittedFrame (topo : Topology) (f : Frame) : Bool :=
  f.length == Config.frameLen topo && emittedCommand (frameByte f (cmdPos topo .d1)) &&
    emittedCommand (frameByte f (cmdPos topo .d2))

/-- A log entry of such a transfer: the received frame, if any, has the same length (R121). -/
def emittedEntry (topo : Topology) (e : LogEntry) : Bool :=
  emittedFrame topo e.tx &&
  match e.outcome with
  | .ok rx => rx.length == Config.frameLen topo
  | .fail c => decide (c < 0)

/-- Every transfer issued since INIT, the outstanding one included, is one the core may issue. -/
def State.framesLegal (s : State) : Bool :=
  s.life == .unconstructed ||
    (s.log.all (emittedEntry s.topo) &&
      match s.xferOut with
      | none => true
      | some x => emittedFrame s.topo x.2)

/-! ### The pipeline (R24, R36, R220) -/

/-- The register a read request reads of device `d`, if its address has a name. -/
def readAddress (j : Job) (d : Dev) : Option Addr6 :=
  match j with
  | .readOne d' a => if d' = d ∧ namedAddress (a.setWidth 6) then some (a.setWidth 6) else none
  | .readPair a1 a2 =>
    let a : Addr6 := match d with
      | .d1 => a1.setWidth 6
      | .d2 => a2.setWidth 6
    if namedAddress a then some a else none
  | .relay d' _ _ => if d' = d then some (ctlAddr.setWidth 6) else none
  | _ => none

/-- Does device `d` hold latched what the pending read of `j` asked of it? -/
def holdsResult (s : State) (j : Job) (d : Dev) : Bool :=
  match readAddress j d with
  | none => true
  | some a => (s.device d).latch == .register a

/-- In ResultPending the addressed device holds the requested register's value latched for the next transaction (R24). -/
def State.pipelineFits (s : State) : Bool :=
  match s.life, s.phase, s.cur.bind jobOf with
  | .live, .resultPending, some j => holdsResult s j .d1 && holdsResult s j .d2
  | _, _, _ => true

end Sys2Proof.Machine
end

