-- ==== Sys2Proof/Certificates/Slice0/Obligations.lean ====
section
/-! DEFINITION. The statements for the provers. Each docstring names the rules of spec/ it formalises. -/

open Sys2Proof Sys2Proof.Machine

/-! ### The command byte and the two encodings -/

/-- R109: every opcode and every address 1..8 survive the command byte.
D0 states it for WR; for the other opcodes the spec marks it as derived. -/
def Obligations.CommandByteRoundTrip : Prop :=
  ∀ (op : Opcode) (a : Nat), 1 ≤ a → a ≤ 8 →
    ∃ b, encodeCommand op a = .ok b ∧ decodeCommand b = (op, BitVec.ofNat 6 a)

/-- R100, R102: the assembly formula for an address in 1..8, InvalidAddress for every other number. -/
def Obligations.EncodeCommandFormulaAndGuard : Prop :=
  ∀ (op : Opcode) (a : Nat),
    (1 ≤ a ∧ a ≤ 8 →
      ∃ b : Byte, encodeCommand op a = .ok b ∧ b.toNat = op.code.toNat * 64 + a) ∧
    (¬ (1 ≤ a ∧ a ≤ 8) → encodeCommand op a = .error .invalidAddress)

/-- R70, R71, R73, R80 to R82: decoding the bytes of any well-formed instruction gives it back, with every operand at every
value. The byte layout is the model's own (log 13). -/
def Obligations.InstructionBytesRoundTrip : Prop :=
  ∀ i : Instr, WellFormed i = true → decode (encode i) = .ok i

/-- R70 to R74: a device word that spells an instruction is the device word of that instruction: no bit is dropped. -/
def Obligations.DeviceWordDecodesInjectively : Prop :=
  ∀ (w : WireWord) (i : Instr), decodeWire w = .ok i → encodeWord i = .wire w

/-- R83 (a): the reserved operation codes and the reserved selection tag spell no request; the model refuses them by name
(U15).
The codes are decision D2 of the spec (log 14). -/
def Obligations.ReservedRequestsAreRefused : Prop :=
  ∀ (s : State) (r : RequestRecord) (rs : List RequestRecord),
    s.ready = true → s.external = [] → s.requests = r :: rs →
    (r.op = 0x0 ∨ r.op = 0xE ∨ r.op = 0xF → step s = .refused (.undefinedRequest .reservedOp)) ∧
    (r.op = 0x9 ∨ r.op = 0xA → r.sel = .reserved → step s = .refused (.undefinedRequest .reservedTag))

/-- R67, R83 (b), (c), U12: a foreign device word with an opcode-00 byte other than 0x00 spells no instruction, and the
machine goes on: nothing is known of the device that received it, and nothing else changes. That what is not given is
unknown is log 29. -/
def Obligations.UndefinedCommandByteLeavesDeviceUnknown : Prop :=
  ∀ (s : State) (w : WireWord) (es : List ExternalEvent),
    s.external = .word w :: es → w.cmd ≠ 0x00 → w.cmd.toNat < 64 →
    (∀ i : Instr, decodeWire w ≠ .ok i) ∧
    step s = .next ({ s with external := es }.setDevice w.dev { latch := .unknown, regs := [] })

/-- R70, R71, R73, R80, R81: words written out from the encodings of the spec decode to the instructions they stand for
(the bytes after the first one of a request are the model's layout, log 13). -/
def Obligations.SpecWordsDecode : Prop :=
  decode [0x00, 0x00, 0x00] = .ok (.diag .d1 0x00) ∧
  decode [0x47, 0x00, 0x00] = .ok (.rd .d1 7 0x00) ∧
  decode [0x88, 0x00, 0x01] = .ok (.rst .d2 8 0x00) ∧
  decode [0xC3, 0x22, 0x01] = .ok (.wr .d2 3 0x22) ∧
  decode [0x01, 1, 7, 0, 0, 0, 0, 0, 0] = .ok (.read1 1 7) ∧
  decode [0x04, 0, 7, 3, 0x11, 0x22, 0, 0, 0] = .ok (.write2 7 0x11 3 0x22) ∧
  decode [0x08, 1, 0, 0, 0, 0, 8, 0, 0] = .ok (.relayOff 1 8) ∧
  decode [0x0A, 2, 0, 0, 0, 0, 0, 0, 0x0F] = .ok (.relaysOff 2 (.mask 0x0F)) ∧
  decode [0x09, 1, 0, 0, 0, 0, 0, 2, 1, 3, 3] = .ok (.relaysOn 1 (.list [1, 3, 3])) ∧
  decode [0x0B, 2, 0, 0, 0, 0, 0, 0, 0] = .ok (.status 2) ∧
  decode [0x0C, 1, 0, 0, 0, 0, 3, 0, 0] = .ok (.health 1 3) ∧
  decode [0x0D, 0, 0, 0, 0, 0, 0, 0, 0] = .ok .teardown ∧
  decode [0x0E, 0, 0, 0, 0, 0, 0, 0, 0] = .error .reservedOp

/-! ### The frame codec -/

/-- R75 to R78, R103: where a single-device command stands in its frame, in both topologies.
The filler bytes are decision D9 of the spec (log 22). -/
def Obligations.SingleFrameLayout : Prop :=
  ∀ (op : Opcode) (d : Dev) (a v : Byte),
    encodeSingleFrame .independent op d a v = [commandByte op a, if op = .wr then v else 0x00] ∧
    encodeSingleFrame .daisyChained op .d1 a v = [0x00, 0x00, commandByte op a, if op = .wr then v else 0x00] ∧
    encodeSingleFrame .daisyChained op .d2 a v = [commandByte op a, if op = .wr then v else 0x00, 0x00, 0x00]

/-- R104, R105: the pair frame puts device 2 first; the follow-up frame is all zeros of the topology's length.
The filler bytes are decision D9 of the spec (log 22). -/
def Obligations.PairAndFollowUpFrameLayout : Prop :=
  (∀ (op : Opcode) (a1 v1 a2 v2 : Byte),
    encodePairFrame op a1 v1 a2 v2 =
      [commandByte op a2, if op = .wr then v2 else 0x00, commandByte op a1, if op = .wr then v1 else 0x00]) ∧
  diagFrame .independent = [0x00, 0x00] ∧ diagFrame .daisyChained = [0x00, 0x00, 0x00, 0x00]

/-- R106, R107: which received bytes make a diagnosis word and a register value (the bytes are the first `len` of the
transport's buffer, R121).
The byte positions are decisions D7 and D8 of the spec (log 21). -/
def Obligations.ReceivedFrameDecoding : Prop :=
  ∀ (s : State) (a : Answer),
    (s.len = 2 → ∀ d : Dev,
      decodeStatus .independent d (s.received a) = a.rx.b0 ++ a.rx.b1 ∧
      decodeRegisterValue .independent d (s.received a) = a.rx.b1) ∧
    (s.len = 4 →
      decodeStatus .daisyChained .d1 (s.received a) = a.rx.b2 ++ a.rx.b3 ∧
      decodeStatus .daisyChained .d2 (s.received a) = a.rx.b0 ++ a.rx.b1 ∧
      decodeRegisterValue .daisyChained .d1 (s.received a) = a.rx.b3 ∧
      decodeRegisterValue .daisyChained .d2 (s.received a) = a.rx.b1)

/-! ### Relay selections, relay bits, health codes -/

/-- R161: each form of a selection, bit by bit, and when it is refused.
The bit of a relay and the refused lengths are decisions D5 and D16 of the spec (logs 20, 25). -/
def Obligations.SelectionNormalisation : Prop :=
  (∀ m : Byte, normalise (.mask m) = .ok m) ∧
  (∀ bs : List Bool, bs.length = 8 →
    ∃ m : Byte, normalise (.bools bs) = .ok m ∧ ∀ i < 8, m.getLsbD (7 - i) = bs.getD i false) ∧
  (∀ bs : List Bool, bs.length ≠ 8 → normalise (.bools bs) = .error .invalidRelay) ∧
  (∀ rs : List Byte, (∀ r ∈ rs, 1 ≤ r.toNat ∧ r.toNat ≤ 8) →
    ∃ m : Byte, normalise (.list rs) = .ok m ∧
      ∀ k < 8, (m.getLsbD k = true ↔ ∃ r ∈ rs, r.toNat = k + 1)) ∧
  (∀ rs : List Byte, (∃ r ∈ rs, ¬ (1 ≤ r.toNat ∧ r.toNat ≤ 8)) → normalise (.list rs) = .error .invalidRelay)

/-- R164: the new CTL value; bits outside the mask keep their value. -/
def Obligations.RelayBitsSetAndCleared : Prop :=
  ∀ (v m : Byte) (k : Nat),
    (relayApply .setBits v m).getLsbD k = (v.getLsbD k || m.getLsbD k) ∧
    (relayApply .clearBits v m).getLsbD k = (v.getLsbD k && !m.getLsbD k)

/-- R152, R154: relay `r`'s code is bits `2r-1` (statCh) and `2r-2` (statGnd) of the word, and the four codes mean what D0
says. -/
def Obligations.HealthCodeBitsAndMeaning : Prop :=
  (∀ (w : Half) (r : Byte), 1 ≤ r.toNat → r.toNat ≤ 8 →
    (healthCode w r).getLsbD 1 = w.getLsbD (2 * r.toNat - 1) ∧
    (healthCode w r).getLsbD 0 = w.getLsbD (2 * r.toNat - 2)) ∧
  healthMeaning 0b11 = .normal ∧ healthMeaning 0b10 = .overload ∧
  healthMeaning 0b01 = .openLoad ∧ healthMeaning 0b00 = .shortToGround

/-! ### The wire commands, at the device that receives them -/

/-- R36: after DIAG the device holds a status word latched; the core, the other device and the register space are unchanged
(the shadow of a device is the model's, log 15). -/
def Obligations.DiagLatchesStatusWord : Prop :=
  ∀ (s : State) (d : Dev),
    exec (.diag d 0x00) s = .next (s.setDevice d { latch := .status, regs := (s.device d).regs })

/-- R36, R58 (b): after RD of a named register the device holds that register's value latched; the register space, the core
and the other device are unchanged (log 15). -/
def Obligations.ReadCommandLatchesRegister : Prop :=
  ∀ (s : State) (d : Dev) (a : Addr6), 1 ≤ a.toNat → a.toNat ≤ 7 →
    exec (.rd d a 0x00) s = .next (s.setDevice d { latch := .register a, regs := (s.device d).regs })

/-- R36, R58 (c): WR changes the addressed register to its data byte and no other, and leaves a status word latched; the core
and the other device are unchanged (log 15). -/
def Obligations.WriteCommandChangesAddressedRegister : Prop :=
  ∀ (s : State) (d : Dev) (a : Addr6) (v : Byte), 1 ≤ a.toNat → a.toNat ≤ 7 →
    ∃ x : Device, exec (.wr d a v) s = .next (s.setDevice d x) ∧ x.latch = .status ∧
      Memory.read x.regs a.toNat = some v ∧
      ∀ b : Nat, b ≠ a.toNat → Memory.read x.regs b = Memory.read (s.device d).regs b

/-- R58 (d), R222: after RST nothing is known of the device, whatever the address; the core and the other device are
unchanged (log 19). -/
def Obligations.ResetCommandLeavesDeviceUnknown : Prop :=
  ∀ (s : State) (d : Dev) (a : Addr6) (data : Byte),
    exec (.rst d a data) s = .next (s.setDevice d { latch := .unknown, regs := [] })

/-- R227, R83 (c), U6: after a command whose device effect is not given (address 8 or an address the core never sends; a
filler byte other than 0x00), nothing is known of the device; the core and the other device are unchanged (log 18). -/
def Obligations.UngivenCommandLeavesDeviceUnknown : Prop :=
  ∀ (s : State) (d : Dev) (a : Addr6) (v : Byte),
    (¬ (1 ≤ a.toNat ∧ a.toNat ≤ 7) →
      exec (.rd d a v) s = .next (s.setDevice d { latch := .unknown, regs := [] }) ∧
      exec (.wr d a v) s = .next (s.setDevice d { latch := .unknown, regs := [] })) ∧
    (v ≠ 0x00 →
      exec (.diag d v) s = .next (s.setDevice d { latch := .unknown, regs := [] }) ∧
      exec (.rd d a v) s = .next (s.setDevice d { latch := .unknown, regs := [] }))

/-! ### ACCEPT of a valid request -/

/-- R120, R124, R126, R128: an accepted READ1, WRITE1 or RESET1 becomes `cur`, its command frame is issued on the addressed
device's handle, and `phase` becomes CommandIssued; nothing else changes.
Both topologies: decision D10 of the spec (log 23); the fillers are D9 (log 22). -/
def Obligations.SingleDeviceRequestIsIssued : Prop :=
  ∀ (s : State) (dev a v : Byte), s.ready = true → (dev = 1 ∨ dev = 2) → 1 ≤ a.toNat → a.toNat ≤ 8 →
    let d := if dev = 2 then Dev.d2 else Dev.d1
    exec (.read1 dev a) s =
      .next { s.issue (s.handleFor d) (encodeSingleFrame s.topo .rd d a 0x00) with
        cur := some (.read1 dev a), phase := .commandIssued } ∧
    exec (.write1 dev a v) s =
      .next { s.issue (s.handleFor d) (encodeSingleFrame s.topo .wr d a v) with
        cur := some (.write1 dev a v), phase := .commandIssued } ∧
    exec (.reset1 dev a) s =
      .next { s.issue (s.handleFor d) (encodeSingleFrame s.topo .rst d a 0x00) with
        cur := some (.reset1 dev a), phase := .commandIssued }

/-- R120, R125, R127, R129: in DaisyChained topology an accepted READ2, WRITE2 or RESET2 becomes `cur`, its pair frame is
issued on `hdl[0]`, and `phase` becomes CommandIssued; nothing else changes.
That these need DaisyChained is decision D10 of the spec (log 23). -/
def Obligations.PairRequestIsIssued : Prop :=
  ∀ (s : State) (a1 v1 a2 v2 : Byte), s.ready = true → s.topo = .daisyChained →
    1 ≤ a1.toNat → a1.toNat ≤ 8 → 1 ≤ a2.toNat → a2.toNat ≤ 8 →
    exec (.read2 a1 a2) s =
      .next { s.issue s.hdl0 (encodePairFrame .rd a1 0x00 a2 0x00) with
        cur := some (.read2 a1 a2), phase := .commandIssued } ∧
    exec (.write2 a1 v1 a2 v2) s =
      .next { s.issue s.hdl0 (encodePairFrame .wr a1 v1 a2 v2) with
        cur := some (.write2 a1 v1 a2 v2), phase := .commandIssued } ∧
    exec (.reset2 a1 a2) s =
      .next { s.issue s.hdl0 (encodePairFrame .rst a1 0x00 a2 0x00) with
        cur := some (.reset2 a1 a2), phase := .commandIssued }

/-- R120, R163, R165: an accepted relay request becomes `cur`, enters ReadStage and issues the read of CTL (address 7) of
its device; nothing else changes.
CTL at address 7 is decision D4 of the spec (log 20). -/
def Obligations.RelayRequestStartsReadStage : Prop :=
  ∀ (s : State) (dev r : Byte) (sel : Selection) (m : Byte), s.ready = true → (dev = 1 ∨ dev = 2) →
    1 ≤ r.toNat → r.toNat ≤ 8 → normalise sel = .ok m →
    let d := if dev = 2 then Dev.d2 else Dev.d1
    let started (i : Instr) : State :=
      { s.issue (s.handleFor d) (encodeSingleFrame s.topo .rd d 7 0x00) with
        cur := some i, phase := .commandIssued, stage := some .readStage }
    exec (.relayOn dev r) s = .next (started (.relayOn dev r)) ∧
    exec (.relayOff dev r) s = .next (started (.relayOff dev r)) ∧
    exec (.relaysOn dev sel) s = .next (started (.relaysOn dev sel)) ∧
    exec (.relaysOff dev sel) s = .next (started (.relaysOff dev sel))

/-- R22, R28, R121: what issuing a transfer is: the frame goes into `buf[0..len-1]` and stands outstanding on the handle of
the addressed device (Independent) or the shared one; nothing else changes. -/
def Obligations.IssueLoadsFrameRegister : Prop :=
  ∀ (s : State) (h : Handle) (b0 b1 b2 b3 : Byte),
    s.issue h [b0, b1] =
      { s with buf := { b0 := b0, b1 := b1, b2 := s.buf.b2, b3 := s.buf.b3 }, xferOut := some (h, [b0, b1]) } ∧
    s.issue h [b0, b1, b2, b3] =
      { s with buf := { b0 := b0, b1 := b1, b2 := b2, b3 := b3 }, xferOut := some (h, [b0, b1, b2, b3]) } ∧
    (s.topo = .independent → s.handleFor .d1 = s.hdl1 ∧ s.handleFor .d2 = s.hdl2) ∧
    (s.topo = .daisyChained → s.handleFor .d1 = s.hdl0 ∧ s.handleFor .d2 = s.hdl0)

/-- R151, R155: STATUS answers the device's diagnosis word and writes `res` only.
The payload is decision D15 of the spec (log 24). -/
def Obligations.StatusReturnsStoredWord : Prop :=
  ∀ s : State, s.ready = true →
    exec (.status 1) s = .next { s with res := .ok (.word s.stat1) } ∧
    exec (.status 2) s = .next { s with res := .ok (.word s.stat2) }

/-- R153, R155: HEALTH answers the two bits of the relay and writes `res` only.
The payload is decision D15 of the spec (log 24). -/
def Obligations.HealthReturnsRelayCode : Prop :=
  ∀ (s : State) (r : Byte), s.ready = true → 1 ≤ r.toNat → r.toNat ≤ 8 →
    exec (.health 1 r) s = .next { s with res := .ok (.code (healthCode s.stat1 r)) } ∧
    exec (.health 2 r) s = .next { s with res := .ok (.code (healthCode s.stat2 r)) }

/-- R212, R31: TEARDOWN closes every handle, shuts the transport down if the instance owns it, writes `life`, and ends with
`Ok` in `res`; nothing else changes (the history of calls is the model's record of them, log 10).
The procedure is decision D21 of the spec; that `Ok` has no payload and that the rest keeps its value is log 11. -/
def Obligations.TeardownClosesHandles : Prop :=
  ∀ s : State, s.ready = true →
    exec .teardown s =
      .next { s with
        life := .tornDown
        res := .ok .unit
        calls := s.calls ++
          (match s.topo with
            | .independent => [.closeChannel s.hdl1, .closeChannel s.hdl2]
            | .daisyChained => [.closeChannel s.hdl0]) ++
          (match s.ownsTransport with
            | true => [.shutdown]
            | false => []) }

/-! ### ACCEPT of an invalid request -/

/-- R185: a request that fails a check writes the error into `res` and changes nothing else, whichever check it is. -/
def Obligations.ValidationErrorChangesResultOnly : Prop :=
  ∀ (s : State) (i : Instr) (k : ErrorKind), s.ready = true → isRequest i = true → validate s.topo i = some k →
    (k = .invalidAddress ∨ k = .invalidDevice ∨ k = .invalidRelay ∨ k = .modeViolation) ∧
    exec i s = .next { s with res := .err k none }

/-- R182, R185, R186: a pair request under Independent writes ModeViolation into `res` and changes nothing else, whatever its
addresses are; under DaisyChained, and for every other instruction in any topology, none puts ModeViolation into `res`.
Which requests need DaisyChained is decision D10 of the spec (log 23). -/
def Obligations.PairRequestNeedsDaisyChain : Prop :=
  (∀ (s : State) (a1 v1 a2 v2 : Byte), s.ready = true → s.topo = .independent →
    exec (.read2 a1 a2) s = .next { s with res := .err .modeViolation none } ∧
    exec (.write2 a1 v1 a2 v2) s = .next { s with res := .err .modeViolation none } ∧
    exec (.reset2 a1 a2) s = .next { s with res := .err .modeViolation none }) ∧
  (∀ (s t : State) (i : Instr), s.topo = .daisyChained ∨ isPairRequest i = false →
    s.res ≠ .err .modeViolation none → exec i s = .next t → t.res ≠ .err .modeViolation none)

/-- R181, R183, R185, R186: a device id outside 1..2 writes InvalidDevice into `res` and changes nothing else, whatever the
other operands are, for every request that names a device.
The order of the checks is decision D13 of the spec (log 23). -/
def Obligations.InvalidDeviceWritesResultOnly : Prop :=
  ∀ (s : State) (dev a v r : Byte) (sel : Selection), s.ready = true → dev ≠ 1 → dev ≠ 2 →
    ∀ i ∈ ([.read1 dev a, .write1 dev a v, .reset1 dev a, .relayOn dev r, .relayOff dev r,
        .relaysOn dev sel, .relaysOff dev sel, .status dev, .health dev r] : List Instr),
      exec i s = .next { s with res := .err .invalidDevice none }

/-- R181, R183, R185, R186: an address outside 1..8, of a device in 1..2 or of a pair request under DaisyChained, writes
InvalidAddress into `res` and changes nothing else: no transfer is issued.
The order of the checks is decision D13 of the spec (log 23). -/
def Obligations.InvalidAddressWritesResultOnly : Prop :=
  (∀ (s : State) (dev a v : Byte), s.ready = true → (dev = 1 ∨ dev = 2) → ¬ (1 ≤ a.toNat ∧ a.toNat ≤ 8) →
    ∀ i ∈ ([.read1 dev a, .write1 dev a v, .reset1 dev a] : List Instr),
      exec i s = .next { s with res := .err .invalidAddress none }) ∧
  (∀ (s : State) (a1 v1 a2 v2 : Byte), s.ready = true → s.topo = .daisyChained →
    ¬ (1 ≤ a1.toNat ∧ a1.toNat ≤ 8) ∨ ¬ (1 ≤ a2.toNat ∧ a2.toNat ≤ 8) →
    ∀ i ∈ ([.read2 a1 a2, .write2 a1 v1 a2 v2, .reset2 a1 a2] : List Instr),
      exec i s = .next { s with res := .err .invalidAddress none })

/-- R162, R181, R183, R185: a relay outside 1..8, a Boolean sequence that does not have 8 elements, or a list with a relay
outside 1..8, of a device in 1..2, writes InvalidRelay into `res` and changes nothing else.
The order of the checks is decision D13, the refused lengths are D16 (logs 23, 25). -/
def Obligations.InvalidRelayWritesResultOnly : Prop :=
  (∀ (s : State) (dev r : Byte), s.ready = true → (dev = 1 ∨ dev = 2) → ¬ (1 ≤ r.toNat ∧ r.toNat ≤ 8) →
    ∀ i ∈ ([.relayOn dev r, .relayOff dev r, .health dev r] : List Instr),
      exec i s = .next { s with res := .err .invalidRelay none }) ∧
  (∀ (s : State) (dev : Byte) (bs : List Bool), s.ready = true → (dev = 1 ∨ dev = 2) → bs.length ≠ 8 →
    ∀ i ∈ ([.relaysOn dev (.bools bs), .relaysOff dev (.bools bs)] : List Instr),
      exec i s = .next { s with res := .err .invalidRelay none }) ∧
  (∀ (s : State) (dev : Byte) (rs : List Byte), s.ready = true → (dev = 1 ∨ dev = 2) →
    (∃ r ∈ rs, ¬ (1 ≤ r.toNat ∧ r.toNat ≤ 8)) →
    ∀ i ∈ ([.relaysOn dev (.list rs), .relaysOff dev (.list rs)] : List Instr),
      exec i s = .next { s with res := .err .invalidRelay none })

/-- R195: before INIT and after TEARDOWN no request is accepted: every request is refused by name, and so is one waiting at
the port (before INIT: with no construction pending).
Refusal: decision D18 of the spec (log 12). -/
def Obligations.RequestsOutsideLiveAreRefused : Prop :=
  (∀ (s : State) (i : Instr), s.life ≠ .live → isRequest i = true → exec i s = .refused .notLive) ∧
  (∀ (s : State) (r : RequestRecord) (rs : List RequestRecord), s.external = [] → s.requests = r :: rs →
    s.life = .tornDown ∨ (s.life = .unconstructed ∧ s.construct = none) → step s = .refused .notLive)

/-- R196: while a request is in progress the port holds: a request changes nothing, and no step takes one from the port.
Holding: decision D18 of the spec (log 4). -/
def Obligations.BusyPortHoldsRequests : Prop :=
  (∀ (s : State) (i : Instr), s.life = .live → s.phase ≠ .idle → isRequest i = true → exec i s = .next s) ∧
  (∀ s t : State, s.life = .live → s.phase ≠ .idle → step s = .next t → t.requests = s.requests)

/-! ### The step -/

/-- R120, R61 (a): when the port is ready and the oldest record spells a request, the step is the execution of that request,
with the record taken from the port.
The port as a queue is the model's (log 1). -/
def Obligations.StepRunsDecodedRequest : Prop :=
  ∀ (s : State) (r : RequestRecord) (rs : List RequestRecord) (i : Instr),
    s.ready = true → s.external = [] → s.requests = r :: rs → decodeRequest r = .ok i →
    step s = exec i { s with requests := rs }

/-- A device word that spells a wire command is executed at its device, whatever the core is doing, with the word taken
from the input (R67; the input and its order are the model's, log 16). -/
def Obligations.StepRunsDecodedDeviceWord : Prop :=
  ∀ (s : State) (w : WireWord) (es : List ExternalEvent) (i : Instr),
    s.external = .word w :: es → decodeWire w = .ok i → step s = exec i { s with external := es }

/-- R67, U12, R222: between any two steps, whatever the core is doing, a device may change one of its registers, change what
it will shift out next, or be reset by the environment: the step changes that device so and nothing else. The events
and their order are the model's (log 16). -/
def Obligations.DeviceMayChangeByItself : Prop :=
  ∀ (s : State) (es : List ExternalEvent) (d : Dev) (k : RegIndex) (v : Byte) (l : Latch),
    (s.external = .register d k v :: es →
      ∃ x : Device, step s = .next ({ s with external := es }.setDevice d x) ∧ x.latch = (s.device d).latch ∧
        Memory.read x.regs (k.val + 1) = some v ∧
        ∀ b : Nat, b ≠ k.val + 1 → Memory.read x.regs b = Memory.read (s.device d).regs b) ∧
    (s.external = .latch d l :: es →
      step s = .next ({ s with external := es }.setDevice d { latch := l, regs := (s.device d).regs })) ∧
    (s.external = .reset d :: es →
      step s = .next ({ s with external := es }.setDevice d { latch := .unknown, regs := [] }))

/-- R122, R226: while the transport has not answered the outstanding transfer, the core stays as it is: no retry, no
timeout.
That a stuck state steps to itself is the model's (log 2). -/
def Obligations.UnansweredTransferHolds : Prop :=
  ∀ s : State, s.inv = true → s.life = .live → s.external = [] →
    s.phase = .commandIssued ∨ s.phase = .resultPending → s.answers = [] → step s = .next s

/-- R187 (and R121, R184): a failed transfer ends the request: TransportFailure with the raw code, no `stat` change, the
entry in the log, nothing issued, one answer consumed, everything before it kept. -/
def Obligations.TransportFailureAbortsRequest : Prop :=
  ∀ (s : State) (h : Handle) (tx : Frame) (a : Answer) (rest : List Answer),
    s.inv = true → s.life = .live → s.external = [] → s.xferOut = some (h, tx) → s.answers = a :: rest → a.result < 0 →
    ∃ t, step s = .next t ∧ t.Rests ∧ s.SameInstance t ∧
      t.res = .err .transportFailure (some a.result) ∧
      t.log = s.log ++ [{ handle := h, tx := tx, outcome := .fail a.result }] ∧
      t.stat1 = s.stat1 ∧ t.stat2 = s.stat2 ∧ t.rdval1 = s.rdval1 ∧ t.rdval2 = s.rdval2 ∧
      t.requests = s.requests ∧ t.answers = rest

/-! ### Whole transactions: every transfer answered -/

/-- R124: READ1 is ACCEPT, two answered transfers, FINISH. The value comes from the second transfer, `stat[d]` from the
first; the log has exactly the two transfers; the other device's `stat` and `rdval2` are unchanged.
The steps are decision D1, the byte positions D7 and D8, the other device's `stat` D11 (logs 21, 23). -/
def Obligations.Read1Transaction : Prop :=
  ∀ (s : State) (r : RequestRecord) (rs : List RequestRecord) (dev a : Byte) (x y : Answer) (rest : List Answer),
    s.ready = true → s.external = [] → s.requests = r :: rs → decodeRequest r = .ok (.read1 dev a) →
    (dev = 1 ∨ dev = 2) → 1 ≤ a.toNat → a.toNat ≤ 8 →
    s.answers = x :: y :: rest → 0 ≤ x.result → 0 ≤ y.result →
    let d := if dev = 2 then Dev.d2 else Dev.d1
    ∃ t, Host.Core.run Sys2Proof.core 4 s = .next t ∧ t.Rests ∧ s.SameInstance t ∧
      t.res = .ok (.byte (decodeRegisterValue s.topo d (s.received y))) ∧
      t.rdval1 = decodeRegisterValue s.topo d (s.received y) ∧ t.rdval2 = s.rdval2 ∧
      t.stat d = decodeStatus s.topo d (s.received x) ∧ t.stat (otherDev d) = s.stat (otherDev d) ∧
      t.log = s.log ++
        [{ handle := s.handleFor d, tx := encodeSingleFrame s.topo .rd d a 0x00, outcome := .ok (s.received x) },
         { handle := s.handleFor d, tx := diagFrame s.topo, outcome := .ok (s.received y) }] ∧
      t.requests = rs ∧ t.answers = rest

/-- R125, R224: READ2 reads both devices at once; after it, `stat` holds the follow-up words.
The steps are decision D1, the byte positions D7 and D8 of the spec (log 21). -/
def Obligations.Read2Transaction : Prop :=
  ∀ (s : State) (r : RequestRecord) (rs : List RequestRecord) (a1 a2 : Byte) (x y : Answer) (rest : List Answer),
    s.ready = true → s.external = [] → s.requests = r :: rs → decodeRequest r = .ok (.read2 a1 a2) →
    s.topo = .daisyChained → 1 ≤ a1.toNat → a1.toNat ≤ 8 → 1 ≤ a2.toNat → a2.toNat ≤ 8 →
    s.answers = x :: y :: rest → 0 ≤ x.result → 0 ≤ y.result →
    ∃ t, Host.Core.run Sys2Proof.core 4 s = .next t ∧ t.Rests ∧ s.SameInstance t ∧
      t.res = .ok (.pair (decodeRegisterValue .daisyChained .d1 (s.received y))
        (decodeRegisterValue .daisyChained .d2 (s.received y))) ∧
      t.rdval1 = decodeRegisterValue .daisyChained .d1 (s.received y) ∧
      t.rdval2 = decodeRegisterValue .daisyChained .d2 (s.received y) ∧
      t.stat1 = decodeStatus .daisyChained .d1 (s.received y) ∧
      t.stat2 = decodeStatus .daisyChained .d2 (s.received y) ∧
      t.log = s.log ++
        [{ handle := s.hdl0, tx := encodePairFrame .rd a1 0x00 a2 0x00, outcome := .ok (s.received x) },
         { handle := s.hdl0, tx := diagFrame .daisyChained, outcome := .ok (s.received y) }] ∧
      t.requests = rs ∧ t.answers = rest

/-- R126, R128: WRITE1 and RESET1 are ACCEPT and one answered transfer; `stat[d]` is the word that transfer returned.
The other device's `stat` is decision D11 of the spec (log 23). -/
def Obligations.SingleStepTransaction : Prop :=
  ∀ (s : State) (r : RequestRecord) (rs : List RequestRecord) (i : Instr) (dev a v : Byte) (op : Opcode)
    (x : Answer) (rest : List Answer),
    s.ready = true → s.external = [] → s.requests = r :: rs → decodeRequest r = .ok i →
    (i = .write1 dev a v ∧ op = .wr) ∨ (i = .reset1 dev a ∧ op = .rst) →
    (dev = 1 ∨ dev = 2) → 1 ≤ a.toNat → a.toNat ≤ 8 → s.answers = x :: rest → 0 ≤ x.result →
    let d := if dev = 2 then Dev.d2 else Dev.d1
    ∃ t, Host.Core.run Sys2Proof.core 2 s = .next t ∧ t.Rests ∧ s.SameInstance t ∧
      t.res = .ok .unit ∧ t.rdval1 = s.rdval1 ∧ t.rdval2 = s.rdval2 ∧
      t.stat d = decodeStatus s.topo d (s.received x) ∧ t.stat (otherDev d) = s.stat (otherDev d) ∧
      t.log = s.log ++
        [{ handle := s.handleFor d, tx := encodeSingleFrame s.topo op d a v, outcome := .ok (s.received x) }] ∧
      t.requests = rs ∧ t.answers = rest

/-- R127, R129: WRITE2 and RESET2 are ACCEPT and one answered transfer; both `stat` words are the ones it returned.
The topology is decision D10 of the spec (log 23). -/
def Obligations.PairSingleStepTransaction : Prop :=
  ∀ (s : State) (r : RequestRecord) (rs : List RequestRecord) (i : Instr) (a1 v1 a2 v2 : Byte) (op : Opcode)
    (x : Answer) (rest : List Answer),
    s.ready = true → s.external = [] → s.requests = r :: rs → decodeRequest r = .ok i →
    (i = .write2 a1 v1 a2 v2 ∧ op = .wr) ∨ (i = .reset2 a1 a2 ∧ op = .rst) →
    s.topo = .daisyChained → 1 ≤ a1.toNat → a1.toNat ≤ 8 → 1 ≤ a2.toNat → a2.toNat ≤ 8 →
    s.answers = x :: rest → 0 ≤ x.result →
    ∃ t, Host.Core.run Sys2Proof.core 2 s = .next t ∧ t.Rests ∧ s.SameInstance t ∧
      t.res = .ok .unit ∧ t.rdval1 = s.rdval1 ∧ t.rdval2 = s.rdval2 ∧
      t.stat1 = decodeStatus .daisyChained .d1 (s.received x) ∧
      t.stat2 = decodeStatus .daisyChained .d2 (s.received x) ∧
      t.log = s.log ++
        [{ handle := s.hdl0, tx := encodePairFrame op a1 v1 a2 v2, outcome := .ok (s.received x) }] ∧
      t.requests = rs ∧ t.answers = rest

/-- R36, R58 (c), R225, R126: at the devices, an answered WRITE1 of a named register changes that register of the
addressed device and no other, and leaves a status word latched; the other device is untouched when Independent, and
has received a DIAG word when DaisyChained (the shadow of the devices is the model's, log 15). -/
def Obligations.WriteTransactionAtTheDevices : Prop :=
  ∀ (s : State) (r : RequestRecord) (rs : List RequestRecord) (dev a v : Byte) (x : Answer) (rest : List Answer),
    s.ready = true → s.external = [] → s.requests = r :: rs → decodeRequest r = .ok (.write1 dev a v) →
    (dev = 1 ∨ dev = 2) → 1 ≤ a.toNat → a.toNat ≤ 7 → s.answers = x :: rest → 0 ≤ x.result →
    let d := if dev = 2 then Dev.d2 else Dev.d1
    ∃ t, Host.Core.run Sys2Proof.core 2 s = .next t ∧
      (t.device d).latch = .status ∧ Memory.read (t.device d).regs a.toNat = some v ∧
      (∀ b : Nat, b ≠ a.toNat → Memory.read (t.device d).regs b = Memory.read (s.device d).regs b) ∧
      (s.topo = .independent → t.device (otherDev d) = s.device (otherDev d)) ∧
      (s.topo = .daisyChained →
        t.device (otherDev d) = { latch := .status, regs := (s.device (otherDev d)).regs })

/-- R165, R167 to R170: a relay request reads CTL, computes the new value from the byte the follow-up returned and its mask,
and always writes it: three transfers, the result is the byte written, `stat[d]` is the word of the last transfer.
CTL at 7, the payload and the write in every case are decisions D4, D15 and D26 of the spec (logs 20, 23, 24). -/
def Obligations.RelayTransaction : Prop :=
  ∀ (s : State) (r : RequestRecord) (rs : List RequestRecord) (i : Instr) (dev rel : Byte) (sel : Selection)
    (f : RelayFn) (m : Byte) (x y z : Answer) (rest : List Answer),
    s.ready = true → s.external = [] → s.requests = r :: rs → decodeRequest r = .ok i →
    (i = .relayOn dev rel ∧ f = .setBits ∧ sel = .list [rel]) ∨ (i = .relayOff dev rel ∧ f = .clearBits ∧ sel = .list [rel]) ∨
      (i = .relaysOn dev sel ∧ f = .setBits) ∨ (i = .relaysOff dev sel ∧ f = .clearBits) →
    (dev = 1 ∨ dev = 2) → normalise sel = .ok m →
    s.answers = x :: y :: z :: rest → 0 ≤ x.result → 0 ≤ y.result → 0 ≤ z.result →
    let d := if dev = 2 then Dev.d2 else Dev.d1
    let read := decodeRegisterValue s.topo d (s.received y)
    let new := relayApply f read m
    ∃ t, Host.Core.run Sys2Proof.core 5 s = .next t ∧ t.Rests ∧ s.SameInstance t ∧
      t.res = .ok (.byte new) ∧ t.rdval1 = read ∧ t.rdval2 = s.rdval2 ∧
      t.stat d = decodeStatus s.topo d (s.received z) ∧ t.stat (otherDev d) = s.stat (otherDev d) ∧
      t.log = s.log ++
        [{ handle := s.handleFor d, tx := encodeSingleFrame s.topo .rd d 7 0x00, outcome := .ok (s.received x) },
         { handle := s.handleFor d, tx := diagFrame s.topo, outcome := .ok (s.received y) },
         { handle := s.handleFor d, tx := encodeSingleFrame s.topo .wr d 7 new, outcome := .ok (s.received z) }] ∧
      t.requests = rs ∧ t.answers = rest

/-- R124, R187, R221: when the follow-up transfer of READ1 fails, `stat[d]` keeps the word of the first transfer, `rdval1` is
not written, and the result is TransportFailure with the raw code: two transfers in the log.
That the device is unknown afterwards is log 17. -/
def Obligations.FailedFollowUpKeepsFirstStatus : Prop :=
  ∀ (s : State) (r : RequestRecord) (rs : List RequestRecord) (dev a : Byte) (x y : Answer) (rest : List Answer),
    s.ready = true → s.external = [] → s.requests = r :: rs → decodeRequest r = .ok (.read1 dev a) →
    (dev = 1 ∨ dev = 2) → 1 ≤ a.toNat → a.toNat ≤ 8 →
    s.answers = x :: y :: rest → 0 ≤ x.result → y.result < 0 →
    let d := if dev = 2 then Dev.d2 else Dev.d1
    ∃ t, Host.Core.run Sys2Proof.core 3 s = .next t ∧ t.Rests ∧ s.SameInstance t ∧
      t.res = .err .transportFailure (some y.result) ∧ t.rdval1 = s.rdval1 ∧ t.rdval2 = s.rdval2 ∧
      t.stat d = decodeStatus s.topo d (s.received x) ∧ t.stat (otherDev d) = s.stat (otherDev d) ∧
      t.log = s.log ++
        [{ handle := s.handleFor d, tx := encodeSingleFrame s.topo .rd d a 0x00, outcome := .ok (s.received x) },
         { handle := s.handleFor d, tx := diagFrame s.topo, outcome := .fail y.result }] ∧
      (t.device d).latch = .unknown ∧
      t.requests = rs ∧ t.answers = rest

/-- R165: when a transfer of a relay request's read stage fails, no write is sent: one transfer in the log when the first
fails, two when the second does.
CTL at 7 is decision D4 of the spec (log 20). -/
def Obligations.FailedRelayReadSendsNoWrite : Prop :=
  ∀ (s : State) (r : RequestRecord) (rs : List RequestRecord) (i : Instr) (d : Dev) (m : Byte) (f : RelayFn)
    (x y : Answer) (rest : List Answer),
    s.ready = true → s.external = [] → s.requests = r :: rs → decodeRequest r = .ok i → validate s.topo i = none →
    jobOf i = some (.relay d m f) → s.answers = x :: y :: rest →
    (x.result < 0 →
      ∃ t, Host.Core.run Sys2Proof.core 2 s = .next t ∧ t.Rests ∧ t.res = .err .transportFailure (some x.result) ∧
        t.stat1 = s.stat1 ∧ t.stat2 = s.stat2 ∧
        t.log = s.log ++
          [{ handle := s.handleFor d, tx := encodeSingleFrame s.topo .rd d 7 0x00, outcome := .fail x.result }]) ∧
    (0 ≤ x.result → y.result < 0 →
      ∃ t, Host.Core.run Sys2Proof.core 3 s = .next t ∧ t.Rests ∧ t.res = .err .transportFailure (some y.result) ∧
        t.stat d = decodeStatus s.topo d (s.received x) ∧ t.stat (otherDev d) = s.stat (otherDev d) ∧
        t.log = s.log ++
          [{ handle := s.handleFor d, tx := encodeSingleFrame s.topo .rd d 7 0x00, outcome := .ok (s.received x) },
           { handle := s.handleFor d, tx := diagFrame s.topo, outcome := .fail y.result }])

/-- R171: RELAY_ON issued twice, where the second read returns the CTL value the first one wrote, writes the same value
both times and returns it both times.
The spec marks R171 as derived; CTL at 7 and bit `r-1` are D4 and D5 (log 20); the value returned is R165's payload, D15
(log 24). -/
def Obligations.RelayOnTwiceWritesSameValue : Prop :=
  ∀ (s : State) (r : RequestRecord) (rs : List RequestRecord) (dev rel : Byte)
    (x y z x' y' z' : Answer) (rest : List Answer),
    s.ready = true → s.external = [] → s.requests = r :: r :: rs → decodeRequest r = .ok (.relayOn dev rel) →
    (dev = 1 ∨ dev = 2) → 1 ≤ rel.toNat → rel.toNat ≤ 8 →
    s.answers = x :: y :: z :: x' :: y' :: z' :: rest →
    0 ≤ x.result → 0 ≤ y.result → 0 ≤ z.result → 0 ≤ x'.result → 0 ≤ y'.result → 0 ≤ z'.result →
    let d := if dev = 2 then Dev.d2 else Dev.d1
    let new := decodeRegisterValue s.topo d (s.received y) ||| (1 : Byte) <<< (rel.toNat - 1)
    decodeRegisterValue s.topo d (s.received y') = new →
    ∃ t u, Host.Core.run Sys2Proof.core 5 s = .next t ∧ Host.Core.run Sys2Proof.core 10 s = .next u ∧
      t.res = .ok (.byte new) ∧ u.res = .ok (.byte new) ∧
      t.log.getLast? =
        some { handle := s.handleFor d, tx := encodeSingleFrame s.topo .wr d 7 new, outcome := .ok (s.received z) } ∧
      u.log.getLast? =
        some { handle := s.handleFor d, tx := encodeSingleFrame s.topo .wr d 7 new, outcome := .ok (s.received z') }

/-- R172, C5: RELAY_ON then RELAY_OFF of the same relay, where the second read returns the CTL value the first one wrote,
writes to CTL, and returns, the starting value with bit `r-1` cleared: the starting value exactly when that bit was 0.
The spec marks R172 as derived; CTL at 7 and bit `r-1` are D4 and D5 (log 20); the value returned is D15 (log 24). -/
def Obligations.RelayOnThenOffRestoresClearedBit : Prop :=
  ∀ (s : State) (r r' : RequestRecord) (rs : List RequestRecord) (dev rel : Byte)
    (x y z x' y' z' : Answer) (rest : List Answer),
    s.ready = true → s.external = [] → s.requests = r :: r' :: rs →
    decodeRequest r = .ok (.relayOn dev rel) → decodeRequest r' = .ok (.relayOff dev rel) →
    (dev = 1 ∨ dev = 2) → 1 ≤ rel.toNat → rel.toNat ≤ 8 →
    s.answers = x :: y :: z :: x' :: y' :: z' :: rest →
    0 ≤ x.result → 0 ≤ y.result → 0 ≤ z.result → 0 ≤ x'.result → 0 ≤ y'.result → 0 ≤ z'.result →
    let d := if dev = 2 then Dev.d2 else Dev.d1
    let v := decodeRegisterValue s.topo d (s.received y)
    decodeRegisterValue s.topo d (s.received y') = v ||| (1 : Byte) <<< (rel.toNat - 1) →
    ∃ t n, Host.Core.run Sys2Proof.core 10 s = .next t ∧ t.res = .ok (.byte n) ∧
      t.log.getLast? =
        some { handle := s.handleFor d, tx := encodeSingleFrame s.topo .wr d 7 n, outcome := .ok (s.received z') } ∧
      (∀ k, k ≠ rel.toNat - 1 → n.getLsbD k = v.getLsbD k) ∧ n.getLsbD (rel.toNat - 1) = false ∧
      (n = v ↔ v.getLsbD (rel.toNat - 1) = false)

/-! ### INIT -/

/-- R37, R210: a successful INIT opens the channels in order and establishes the values of R37.
The order of the calls is decision D19, the values but `stat` are D20 (logs 23, 30). -/
def Obligations.InitEstablishesResetValues : Prop :=
  ∀ (s : State) (c : Construction) (h1 h2 : Handle), s.external = [] → s.life = .unconstructed → s.construct = some c →
    c.firstOpen = .handle h1 → (c.topology = .independent → c.secondOpen = .handle h2) →
    ∃ t, step s = .next t ∧ t.life = .live ∧ t.topo = c.topology ∧ t.Rests ∧
      t.stat1 = 0xFFFF ∧ t.stat2 = 0xFFFF ∧ t.buf = ⟨0, 0, 0, 0⟩ ∧ t.rdval1 = 0 ∧ t.rdval2 = 0 ∧
      t.res = .none ∧ t.log = [] ∧ t.ownsTransport = c.ownsTransport ∧
      t.construct = none ∧ t.requests = s.requests ∧ t.answers = s.answers ∧ t.external = s.external ∧
      t.dev1 = s.dev1 ∧ t.dev2 = s.dev2 ∧
      (c.topology = .independent → t.len = 2 ∧ t.hdl1 = h1 ∧ t.hdl2 = h2 ∧
        t.calls = s.calls ++ [.openChannel c.ch1 c.baud c.spiMode (.handle h1),
          .openChannel c.ch2 c.baud c.spiMode (.handle h2)]) ∧
      (c.topology = .daisyChained → t.len = 4 ∧ t.hdl0 = h1 ∧
        t.calls = s.calls ++ [.openChannel c.chDC c.baud c.spiMode (.handle h1)])

/-- R188, R210, R180: when an openChannel call fails, `life` stays Unconstructed and the caller receives InitializationFailure with
the failing result; when the second open fails, the first handle is closed; nothing is transferred.
The order of the calls is decision D19; where the caller receives the error is log 8; that it carries the failing result
is R180 with decision D27, against R31 (log 24, DEDUCED). -/
def Obligations.FailedInitLeavesNoInstance : Prop :=
  ∀ (s : State) (c : Construction) (e : Int), s.external = [] → s.life = .unconstructed → s.construct = some c →
    (c.firstOpen = .failure e →
      ∃ t, step s = .next t ∧ t.life = .unconstructed ∧ t.construct = none ∧ t.log = s.log ∧
        t.res = .err .initializationFailure (some e) ∧
        t.calls = s.calls ++ [.openChannel (if c.topology = .independent then c.ch1 else c.chDC) c.baud c.spiMode
          (.failure e)]) ∧
    (∀ h : Handle, c.topology = .independent → c.firstOpen = .handle h → c.secondOpen = .failure e →
      ∃ t, step s = .next t ∧ t.life = .unconstructed ∧ t.construct = none ∧ t.log = s.log ∧
        t.res = .err .initializationFailure (some e) ∧
        t.calls = s.calls ++ [.openChannel c.ch1 c.baud c.spiMode (.handle h),
          .openChannel c.ch2 c.baud c.spiMode (.failure e), .closeChannel h])

/-! ### Invariants and rules of the whole machine -/

/-- R37: after reset the core is Live and Idle with nothing in progress, both diagnosis words are all ones, nothing has been
transferred, and the invariant holds.
The values but `stat` are decision D20 of the spec (log 30); that reset is a constructed instance is log 6. -/
def Obligations.ResetValuesAndInvariant : Prop :=
  State.reset.ready = true ∧ State.reset.Rests ∧ State.reset.stat1 = 0xFFFF ∧ State.reset.stat2 = 0xFFFF ∧
    State.reset.res = .none ∧ State.reset.log = [] ∧ State.reset.inv = true ∧
    State.reset.framesLegal = true ∧ State.reset.pipelineFits = true

/-- R24, R25, R28, R30: every step, from every state that meets it, keeps the invariant of the sequencer registers and of
the devices' register spaces.
The sequencer registers are decision D1 of the spec. -/
def Obligations.StepKeepsInvariant : Prop :=
  ∀ s t : State, s.inv = true → step s = .next t → t.inv = true

/-- R120, R190: under the invariant a step is always enabled: the machine never stops with a fault.
The fault is the model's (log 26). -/
def Obligations.InvariantExcludesFaults : Prop :=
  ∀ s : State, s.inv = true → ∀ e : Fault, step s ≠ .fault e

/-- R30: under the invariant a Live core has a transfer outstanding exactly in CommandIssued and ResultPending.
The spec marks R30 as derived. -/
def Obligations.TransferOutstandingExactlyWhenPending : Prop :=
  ∀ s : State, s.inv = true → s.life = .live →
    (s.xferOut ≠ none ↔ s.phase = .commandIssued ∨ s.phase = .resultPending)

/-- R55, R72, R83 (b), R121: every frame the core issues, on the wire or in the log, has FRAME_LEN(topo) bytes and only
command bytes the core may emit, and every received frame has the same length.
The fillers are decision D9 of the spec (log 22). -/
def Obligations.StepKeepsFramesLegal : Prop :=
  ∀ s t : State, s.inv = true → s.framesLegal = true → step s = .next t → t.framesLegal = true

/-- R24, R36, R220: with no event at a device outside the core's transfers, while a read's follow-up is outstanding the addressed device
holds the requested register's value latched (the device shadow is the model's, log 15). -/
def Obligations.StepKeepsPipelineLatch : Prop :=
  ∀ s t : State, s.inv = true → s.external = [] → s.pipelineFits = true → step s = .next t →
    t.external = [] ∧ t.pipelineFits = true

/-- R21, R22: no step of a constructed instance changes its topology, its handles, `len` or the ownership of the
transport. -/
def Obligations.StepKeepsConfiguration : Prop :=
  ∀ s t : State, s.life ≠ .unconstructed → step s = .next t →
    t.topo = s.topo ∧ t.hdl0 = s.hdl0 ∧ t.hdl1 = s.hdl1 ∧ t.hdl2 = s.hdl2 ∧ t.len = s.len ∧
      t.ownsTransport = s.ownsTransport ∧ t.life ≠ .unconstructed

/-- R27, R123, R150: a step of a constructed instance that changes a diagnosis word answers an outstanding transfer with
`ok`, and the new word is the whole word decoded from the received frame. -/
def Obligations.StatusChangesOnlyOnAnsweredTransfer : Prop :=
  ∀ (s t : State) (d : Dev), s.life ≠ .unconstructed → step s = .next t → t.stat d ≠ s.stat d →
    ∃ x a rest, s.xferOut = some x ∧ s.answers = a :: rest ∧ 0 ≤ a.result ∧
      (s.phase = .commandIssued ∨ s.phase = .resultPending) ∧
      t.stat d = decodeStatus s.topo d (s.received a)

/-- R32, R61, R121, R122: a step of a constructed instance leaves the log as it is or appends the one entry of the
outstanding transfer, consuming one answer, and that transfer is outstanding no more: nothing is, or the follow-up of
an answered command on the same handle. So each transfer is attempted once and logged in issue order. -/
def Obligations.LogGrowsByAnsweredTransfer : Prop :=
  ∀ s t : State, s.life ≠ .unconstructed → step s = .next t →
    (t.log = s.log ∧ t.answers = s.answers) ∨
    ∃ h tx a rest, s.xferOut = some (h, tx) ∧ s.answers = a :: rest ∧ t.answers = rest ∧
      t.log = s.log ++
        [{ handle := h, tx := tx, outcome := if a.result < 0 then .fail a.result else .ok (s.received a) }] ∧
      (t.xferOut = none ∨
        (s.phase = .commandIssued ∧ 0 ≤ a.result ∧ t.phase = .resultPending ∧ t.xferOut = some (h, diagFrame s.topo)))

/-- R131: executing an instruction issues a transfer only at a ready port and only for a request that has passed all of
its checks, and after every step from a state that meets the invariant, a transfer is outstanding only for such a
request, the one in `cur`. -/
def Obligations.TransferIssuedOnlyAfterValidation : Prop :=
  (∀ (s t : State) (i : Instr), exec i s = .next t → t.xferOut ≠ s.xferOut →
    s.ready = true ∧ isRequest i = true ∧ validate s.topo i = none ∧ t.cur = some i) ∧
  (∀ s t : State, s.inv = true → step s = .next t → t.life ≠ .unconstructed → t.xferOut ≠ none →
    ∃ i : Instr, t.cur = some i ∧ validate t.topo i = none)

/-- R23, R195: after TEARDOWN an instance stays torn down.
That an instance is not constructed again is log 12. -/
def Obligations.TornDownIsFinal : Prop :=
  ∀ s t : State, s.life = .tornDown → step s = .next t → t.life = .tornDown ∧ t.log = s.log ∧ t.calls = s.calls
end

