-- ==== Sys2Proof/Laws/State.lean ====
section
/-! SUPPORT. What each named update of the state leaves in every field: one equation per field, all true by unfolding the
update once, so that no later proof unfolds a record update. -/

namespace Sys2Proof.Machine

@[simp] theorem State.setDevice_fields (s : State) (d : Dev) (x : Device) :
    (s.setDevice d x).topo = s.topo ∧ (s.setDevice d x).hdl0 = s.hdl0 ∧ (s.setDevice d x).hdl1 = s.hdl1 ∧
    (s.setDevice d x).hdl2 = s.hdl2 ∧ (s.setDevice d x).life = s.life ∧ (s.setDevice d x).phase = s.phase ∧
    (s.setDevice d x).cur = s.cur ∧ (s.setDevice d x).stage = s.stage ∧ (s.setDevice d x).stat1 = s.stat1 ∧
    (s.setDevice d x).stat2 = s.stat2 ∧ (s.setDevice d x).buf = s.buf ∧ (s.setDevice d x).len = s.len ∧
    (s.setDevice d x).rdval1 = s.rdval1 ∧ (s.setDevice d x).rdval2 = s.rdval2 ∧
    (s.setDevice d x).xferOut = s.xferOut ∧ (s.setDevice d x).res = s.res ∧ (s.setDevice d x).log = s.log ∧
    (s.setDevice d x).ownsTransport = s.ownsTransport ∧ (s.setDevice d x).dev1 = (if d = .d1 then x else s.dev1) ∧
    (s.setDevice d x).dev2 = (if d = .d2 then x else s.dev2) ∧ (s.setDevice d x).construct = s.construct ∧
    (s.setDevice d x).requests = s.requests ∧ (s.setDevice d x).answers = s.answers ∧
    (s.setDevice d x).external = s.external ∧ (s.setDevice d x).calls = s.calls := by
  cases d <;> simp [State.setDevice]

/-- What an event makes of its device. -/
theorem State.externalChange_setDevice (s : State) (e : ExternalEvent) : ∃ d x, s.externalChange e = s.setDevice d x := by
  cases e <;> exact ⟨_, _, rfl⟩

/-- An event at a device changes nothing but that device (R67). -/
@[simp] theorem State.externalChange_fields (s : State) (e : ExternalEvent) :
    (s.externalChange e).topo = s.topo ∧ (s.externalChange e).hdl0 = s.hdl0 ∧ (s.externalChange e).hdl1 = s.hdl1 ∧
    (s.externalChange e).hdl2 = s.hdl2 ∧ (s.externalChange e).life = s.life ∧ (s.externalChange e).phase = s.phase ∧
    (s.externalChange e).cur = s.cur ∧ (s.externalChange e).stage = s.stage ∧ (s.externalChange e).stat1 = s.stat1 ∧
    (s.externalChange e).stat2 = s.stat2 ∧ (s.externalChange e).buf = s.buf ∧ (s.externalChange e).len = s.len ∧
    (s.externalChange e).rdval1 = s.rdval1 ∧ (s.externalChange e).rdval2 = s.rdval2 ∧
    (s.externalChange e).xferOut = s.xferOut ∧ (s.externalChange e).res = s.res ∧ (s.externalChange e).log = s.log ∧
    (s.externalChange e).ownsTransport = s.ownsTransport ∧ (s.externalChange e).construct = s.construct ∧
    (s.externalChange e).requests = s.requests ∧ (s.externalChange e).answers = s.answers ∧
    (s.externalChange e).external = s.external ∧ (s.externalChange e).calls = s.calls := by
  obtain ⟨d, x, h⟩ := s.externalChange_setDevice e
  simp [h]

@[simp] theorem State.deliver_fields (s : State) (t : Target) (tx : Frame) :
    (s.deliver t tx).topo = s.topo ∧ (s.deliver t tx).hdl0 = s.hdl0 ∧ (s.deliver t tx).hdl1 = s.hdl1 ∧
    (s.deliver t tx).hdl2 = s.hdl2 ∧ (s.deliver t tx).life = s.life ∧ (s.deliver t tx).phase = s.phase ∧
    (s.deliver t tx).cur = s.cur ∧ (s.deliver t tx).stage = s.stage ∧ (s.deliver t tx).stat1 = s.stat1 ∧
    (s.deliver t tx).stat2 = s.stat2 ∧ (s.deliver t tx).buf = s.buf ∧ (s.deliver t tx).len = s.len ∧
    (s.deliver t tx).rdval1 = s.rdval1 ∧ (s.deliver t tx).rdval2 = s.rdval2 ∧ (s.deliver t tx).xferOut = s.xferOut ∧
    (s.deliver t tx).res = s.res ∧ (s.deliver t tx).log = s.log ∧ (s.deliver t tx).ownsTransport = s.ownsTransport ∧
    (s.deliver t tx).dev1 = (if State.reaches s.topo t .d1 then s.deliveredTo tx .d1 else s.dev1) ∧
    (s.deliver t tx).dev2 = (if State.reaches s.topo t .d2 then s.deliveredTo tx .d2 else s.dev2) ∧
    (s.deliver t tx).construct = s.construct ∧ (s.deliver t tx).requests = s.requests ∧
    (s.deliver t tx).answers = s.answers ∧ (s.deliver t tx).external = s.external ∧ (s.deliver t tx).calls = s.calls := by
  exact ⟨rfl, rfl, rfl, rfl, rfl, rfl, rfl, rfl, rfl, rfl, rfl, rfl, rfl, rfl, rfl, rfl, rfl, rfl, rfl, rfl, rfl, rfl, rfl, rfl, rfl⟩

@[simp] theorem State.forget_fields (s : State) (t : Target) :
    (s.forget t).topo = s.topo ∧ (s.forget t).hdl0 = s.hdl0 ∧ (s.forget t).hdl1 = s.hdl1 ∧
    (s.forget t).hdl2 = s.hdl2 ∧ (s.forget t).life = s.life ∧ (s.forget t).phase = s.phase ∧
    (s.forget t).cur = s.cur ∧ (s.forget t).stage = s.stage ∧ (s.forget t).stat1 = s.stat1 ∧
    (s.forget t).stat2 = s.stat2 ∧ (s.forget t).buf = s.buf ∧ (s.forget t).len = s.len ∧
    (s.forget t).rdval1 = s.rdval1 ∧ (s.forget t).rdval2 = s.rdval2 ∧ (s.forget t).xferOut = s.xferOut ∧
    (s.forget t).res = s.res ∧ (s.forget t).log = s.log ∧ (s.forget t).ownsTransport = s.ownsTransport ∧
    (s.forget t).dev1 = (if State.reaches s.topo t .d1 then Device.unknown else s.dev1) ∧
    (s.forget t).dev2 = (if State.reaches s.topo t .d2 then Device.unknown else s.dev2) ∧
    (s.forget t).construct = s.construct ∧ (s.forget t).requests = s.requests ∧ (s.forget t).answers = s.answers ∧
    (s.forget t).external = s.external ∧ (s.forget t).calls = s.calls := by
  exact ⟨rfl, rfl, rfl, rfl, rfl, rfl, rfl, rfl, rfl, rfl, rfl, rfl, rfl, rfl, rfl, rfl, rfl, rfl, rfl, rfl, rfl, rfl, rfl, rfl, rfl⟩

@[simp] theorem State.setStat_fields (s : State) (d : Dev) (w : Half) :
    (s.setStat d w).topo = s.topo ∧ (s.setStat d w).hdl0 = s.hdl0 ∧ (s.setStat d w).hdl1 = s.hdl1 ∧
    (s.setStat d w).hdl2 = s.hdl2 ∧ (s.setStat d w).life = s.life ∧ (s.setStat d w).phase = s.phase ∧
    (s.setStat d w).cur = s.cur ∧ (s.setStat d w).stage = s.stage ∧
    (s.setStat d w).stat1 = (if d = .d1 then w else s.stat1) ∧
    (s.setStat d w).stat2 = (if d = .d2 then w else s.stat2) ∧ (s.setStat d w).buf = s.buf ∧
    (s.setStat d w).len = s.len ∧ (s.setStat d w).rdval1 = s.rdval1 ∧ (s.setStat d w).rdval2 = s.rdval2 ∧
    (s.setStat d w).xferOut = s.xferOut ∧ (s.setStat d w).res = s.res ∧ (s.setStat d w).log = s.log ∧
    (s.setStat d w).ownsTransport = s.ownsTransport ∧ (s.setStat d w).dev1 = s.dev1 ∧ (s.setStat d w).dev2 = s.dev2 ∧
    (s.setStat d w).construct = s.construct ∧ (s.setStat d w).requests = s.requests ∧
    (s.setStat d w).answers = s.answers ∧ (s.setStat d w).external = s.external ∧ (s.setStat d w).calls = s.calls := by
  cases d <;> simp [State.setStat]

@[simp] theorem State.updateStat_fields (s : State) (t : Target) (rx : Frame) :
    (s.updateStat t rx).topo = s.topo ∧ (s.updateStat t rx).hdl0 = s.hdl0 ∧ (s.updateStat t rx).hdl1 = s.hdl1 ∧
    (s.updateStat t rx).hdl2 = s.hdl2 ∧ (s.updateStat t rx).life = s.life ∧ (s.updateStat t rx).phase = s.phase ∧
    (s.updateStat t rx).cur = s.cur ∧ (s.updateStat t rx).stage = s.stage ∧
    (s.updateStat t rx).stat1 = (if t = .one .d2 then s.stat1 else decodeStatus s.topo .d1 rx) ∧
    (s.updateStat t rx).stat2 = (if t = .one .d1 then s.stat2 else decodeStatus s.topo .d2 rx) ∧
    (s.updateStat t rx).buf = s.buf ∧ (s.updateStat t rx).len = s.len ∧ (s.updateStat t rx).rdval1 = s.rdval1 ∧
    (s.updateStat t rx).rdval2 = s.rdval2 ∧ (s.updateStat t rx).xferOut = s.xferOut ∧
    (s.updateStat t rx).res = s.res ∧ (s.updateStat t rx).log = s.log ∧
    (s.updateStat t rx).ownsTransport = s.ownsTransport ∧ (s.updateStat t rx).dev1 = s.dev1 ∧
    (s.updateStat t rx).dev2 = s.dev2 ∧ (s.updateStat t rx).construct = s.construct ∧
    (s.updateStat t rx).requests = s.requests ∧ (s.updateStat t rx).answers = s.answers ∧
    (s.updateStat t rx).external = s.external ∧ (s.updateStat t rx).calls = s.calls := by
  rcases t with (_ | _) | _ <;> simp [State.updateStat]

@[simp] theorem State.issue_fields (s : State) (h : Handle) (tx : Frame) :
    (s.issue h tx).topo = s.topo ∧ (s.issue h tx).hdl0 = s.hdl0 ∧ (s.issue h tx).hdl1 = s.hdl1 ∧
    (s.issue h tx).hdl2 = s.hdl2 ∧ (s.issue h tx).life = s.life ∧ (s.issue h tx).phase = s.phase ∧
    (s.issue h tx).cur = s.cur ∧ (s.issue h tx).stage = s.stage ∧ (s.issue h tx).stat1 = s.stat1 ∧
    (s.issue h tx).stat2 = s.stat2 ∧ (s.issue h tx).buf = State.loadBuf s.buf tx ∧ (s.issue h tx).len = s.len ∧
    (s.issue h tx).rdval1 = s.rdval1 ∧ (s.issue h tx).rdval2 = s.rdval2 ∧ (s.issue h tx).xferOut = some (h, tx) ∧
    (s.issue h tx).res = s.res ∧ (s.issue h tx).log = s.log ∧ (s.issue h tx).ownsTransport = s.ownsTransport ∧
    (s.issue h tx).dev1 = s.dev1 ∧ (s.issue h tx).dev2 = s.dev2 ∧ (s.issue h tx).construct = s.construct ∧
    (s.issue h tx).requests = s.requests ∧ (s.issue h tx).answers = s.answers ∧ (s.issue h tx).external = s.external ∧
    (s.issue h tx).calls = s.calls := by
  exact ⟨rfl, rfl, rfl, rfl, rfl, rfl, rfl, rfl, rfl, rfl, rfl, rfl, rfl, rfl, rfl, rfl, rfl, rfl, rfl, rfl, rfl, rfl, rfl, rfl, rfl⟩

@[simp] theorem State.completeOk_fields (s : State) (t : Target) (h : Handle) (tx : Frame) (a : Answer) (rest : List Answer) :
    (s.completeOk t h tx a rest).topo = s.topo ∧ (s.completeOk t h tx a rest).hdl0 = s.hdl0 ∧
    (s.completeOk t h tx a rest).hdl1 = s.hdl1 ∧ (s.completeOk t h tx a rest).hdl2 = s.hdl2 ∧
    (s.completeOk t h tx a rest).life = s.life ∧ (s.completeOk t h tx a rest).phase = s.phase ∧
    (s.completeOk t h tx a rest).cur = s.cur ∧ (s.completeOk t h tx a rest).stage = s.stage ∧
    (s.completeOk t h tx a rest).stat1 = s.stat1 ∧ (s.completeOk t h tx a rest).stat2 = s.stat2 ∧
    (s.completeOk t h tx a rest).buf = State.loadBuf s.buf (s.received a) ∧ (s.completeOk t h tx a rest).len = s.len ∧
    (s.completeOk t h tx a rest).rdval1 = s.rdval1 ∧ (s.completeOk t h tx a rest).rdval2 = s.rdval2 ∧
    (s.completeOk t h tx a rest).xferOut = none ∧ (s.completeOk t h tx a rest).res = s.res ∧
    (s.completeOk t h tx a rest).log = s.log ++ [{ handle := h, tx, outcome := .ok (s.received a) }] ∧
    (s.completeOk t h tx a rest).ownsTransport = s.ownsTransport ∧
    (s.completeOk t h tx a rest).dev1 = (s.deliver t tx).dev1 ∧
    (s.completeOk t h tx a rest).dev2 = (s.deliver t tx).dev2 ∧ (s.completeOk t h tx a rest).construct = s.construct ∧
    (s.completeOk t h tx a rest).requests = s.requests ∧ (s.completeOk t h tx a rest).answers = rest ∧
    (s.completeOk t h tx a rest).external = s.external ∧ (s.completeOk t h tx a rest).calls = s.calls := by
  exact ⟨rfl, rfl, rfl, rfl, rfl, rfl, rfl, rfl, rfl, rfl, rfl, rfl, rfl, rfl, rfl, rfl, rfl, rfl, rfl, rfl, rfl, rfl, rfl, rfl, rfl⟩

@[simp] theorem State.completeFail_fields (s : State) (t : Target) (h : Handle) (tx : Frame) (a : Answer) (rest : List Answer) :
    (s.completeFail t h tx a rest).topo = s.topo ∧ (s.completeFail t h tx a rest).hdl0 = s.hdl0 ∧
    (s.completeFail t h tx a rest).hdl1 = s.hdl1 ∧ (s.completeFail t h tx a rest).hdl2 = s.hdl2 ∧
    (s.completeFail t h tx a rest).life = s.life ∧ (s.completeFail t h tx a rest).phase = s.phase ∧
    (s.completeFail t h tx a rest).cur = s.cur ∧ (s.completeFail t h tx a rest).stage = s.stage ∧
    (s.completeFail t h tx a rest).stat1 = s.stat1 ∧ (s.completeFail t h tx a rest).stat2 = s.stat2 ∧
    (s.completeFail t h tx a rest).buf = a.rx ∧ (s.completeFail t h tx a rest).len = s.len ∧
    (s.completeFail t h tx a rest).rdval1 = s.rdval1 ∧ (s.completeFail t h tx a rest).rdval2 = s.rdval2 ∧
    (s.completeFail t h tx a rest).xferOut = none ∧ (s.completeFail t h tx a rest).res = s.res ∧
    (s.completeFail t h tx a rest).log = s.log ++ [{ handle := h, tx, outcome := .fail a.result }] ∧
    (s.completeFail t h tx a rest).ownsTransport = s.ownsTransport ∧
    (s.completeFail t h tx a rest).dev1 = (s.forget t).dev1 ∧
    (s.completeFail t h tx a rest).dev2 = (s.forget t).dev2 ∧ (s.completeFail t h tx a rest).construct = s.construct ∧
    (s.completeFail t h tx a rest).requests = s.requests ∧ (s.completeFail t h tx a rest).answers = rest ∧
    (s.completeFail t h tx a rest).external = s.external ∧ (s.completeFail t h tx a rest).calls = s.calls := by
  exact ⟨rfl, rfl, rfl, rfl, rfl, rfl, rfl, rfl, rfl, rfl, rfl, rfl, rfl, rfl, rfl, rfl, rfl, rfl, rfl, rfl, rfl, rfl, rfl, rfl, rfl⟩

@[simp] theorem State.setRes_fields (s : State) (r : Result) :
    (s.setRes r).topo = s.topo ∧ (s.setRes r).hdl0 = s.hdl0 ∧ (s.setRes r).hdl1 = s.hdl1 ∧
    (s.setRes r).hdl2 = s.hdl2 ∧ (s.setRes r).life = s.life ∧ (s.setRes r).phase = s.phase ∧
    (s.setRes r).cur = s.cur ∧ (s.setRes r).stage = s.stage ∧ (s.setRes r).stat1 = s.stat1 ∧
    (s.setRes r).stat2 = s.stat2 ∧ (s.setRes r).buf = s.buf ∧ (s.setRes r).len = s.len ∧
    (s.setRes r).rdval1 = s.rdval1 ∧ (s.setRes r).rdval2 = s.rdval2 ∧ (s.setRes r).xferOut = s.xferOut ∧
    (s.setRes r).res = r ∧ (s.setRes r).log = s.log ∧ (s.setRes r).ownsTransport = s.ownsTransport ∧
    (s.setRes r).dev1 = s.dev1 ∧ (s.setRes r).dev2 = s.dev2 ∧ (s.setRes r).construct = s.construct ∧
    (s.setRes r).requests = s.requests ∧ (s.setRes r).answers = s.answers ∧ (s.setRes r).external = s.external ∧
    (s.setRes r).calls = s.calls := by
  exact ⟨rfl, rfl, rfl, rfl, rfl, rfl, rfl, rfl, rfl, rfl, rfl, rfl, rfl, rfl, rfl, rfl, rfl, rfl, rfl, rfl, rfl, rfl, rfl, rfl, rfl⟩

@[simp] theorem State.raise_fields (s : State) (k : ErrorKind) (info : Option Int) :
    (s.raise k info).topo = s.topo ∧ (s.raise k info).hdl0 = s.hdl0 ∧ (s.raise k info).hdl1 = s.hdl1 ∧
    (s.raise k info).hdl2 = s.hdl2 ∧ (s.raise k info).life = s.life ∧ (s.raise k info).phase = .idle ∧
    (s.raise k info).cur = none ∧ (s.raise k info).stage = none ∧ (s.raise k info).stat1 = s.stat1 ∧
    (s.raise k info).stat2 = s.stat2 ∧ (s.raise k info).buf = s.buf ∧ (s.raise k info).len = s.len ∧
    (s.raise k info).rdval1 = s.rdval1 ∧ (s.raise k info).rdval2 = s.rdval2 ∧ (s.raise k info).xferOut = s.xferOut ∧
    (s.raise k info).res = .err k info ∧ (s.raise k info).log = s.log ∧
    (s.raise k info).ownsTransport = s.ownsTransport ∧ (s.raise k info).dev1 = s.dev1 ∧
    (s.raise k info).dev2 = s.dev2 ∧ (s.raise k info).construct = s.construct ∧
    (s.raise k info).requests = s.requests ∧ (s.raise k info).answers = s.answers ∧ (s.raise k info).external = s.external ∧
    (s.raise k info).calls = s.calls := by
  exact ⟨rfl, rfl, rfl, rfl, rfl, rfl, rfl, rfl, rfl, rfl, rfl, rfl, rfl, rfl, rfl, rfl, rfl, rfl, rfl, rfl, rfl, rfl, rfl, rfl, rfl⟩

@[simp] theorem State.finishOk_fields (s : State) (p : Payload) :
    (s.finishOk p).topo = s.topo ∧ (s.finishOk p).hdl0 = s.hdl0 ∧ (s.finishOk p).hdl1 = s.hdl1 ∧
    (s.finishOk p).hdl2 = s.hdl2 ∧ (s.finishOk p).life = s.life ∧ (s.finishOk p).phase = .idle ∧
    (s.finishOk p).cur = none ∧ (s.finishOk p).stage = none ∧ (s.finishOk p).stat1 = s.stat1 ∧
    (s.finishOk p).stat2 = s.stat2 ∧ (s.finishOk p).buf = s.buf ∧ (s.finishOk p).len = s.len ∧
    (s.finishOk p).rdval1 = s.rdval1 ∧ (s.finishOk p).rdval2 = s.rdval2 ∧ (s.finishOk p).xferOut = s.xferOut ∧
    (s.finishOk p).res = .ok p ∧ (s.finishOk p).log = s.log ∧ (s.finishOk p).ownsTransport = s.ownsTransport ∧
    (s.finishOk p).dev1 = s.dev1 ∧ (s.finishOk p).dev2 = s.dev2 ∧ (s.finishOk p).construct = s.construct ∧
    (s.finishOk p).requests = s.requests ∧ (s.finishOk p).answers = s.answers ∧ (s.finishOk p).external = s.external ∧
    (s.finishOk p).calls = s.calls := by
  exact ⟨rfl, rfl, rfl, rfl, rfl, rfl, rfl, rfl, rfl, rfl, rfl, rfl, rfl, rfl, rfl, rfl, rfl, rfl, rfl, rfl, rfl, rfl, rfl, rfl, rfl⟩

/-- What TEARDOWN leaves in every field but the record of calls (R212, R31). -/
@[simp] theorem State.teardown_fields (s : State) :
    s.teardown.topo = s.topo ∧ s.teardown.hdl0 = s.hdl0 ∧ s.teardown.hdl1 = s.hdl1 ∧ s.teardown.hdl2 = s.hdl2 ∧
    s.teardown.life = .tornDown ∧ s.teardown.phase = s.phase ∧ s.teardown.cur = s.cur ∧ s.teardown.stage = s.stage ∧
    s.teardown.stat1 = s.stat1 ∧ s.teardown.stat2 = s.stat2 ∧ s.teardown.buf = s.buf ∧ s.teardown.len = s.len ∧
    s.teardown.rdval1 = s.rdval1 ∧ s.teardown.rdval2 = s.rdval2 ∧ s.teardown.xferOut = s.xferOut ∧ s.teardown.res = .ok .unit ∧
    s.teardown.log = s.log ∧ s.teardown.ownsTransport = s.ownsTransport ∧ s.teardown.dev1 = s.dev1 ∧ s.teardown.dev2 = s.dev2 ∧
    s.teardown.construct = s.construct ∧ s.teardown.requests = s.requests ∧ s.teardown.answers = s.answers ∧ s.teardown.external = s.external := by
  exact ⟨rfl, rfl, rfl, rfl, rfl, rfl, rfl, rfl, rfl, rfl, rfl, rfl, rfl, rfl, rfl, rfl, rfl, rfl, rfl, rfl, rfl, rfl, rfl, rfl⟩

@[simp] theorem State.startRequest_fields (s : State) (i : Instr) (h : Handle) (tx : Frame) :
    (s.startRequest i h tx).topo = s.topo ∧ (s.startRequest i h tx).hdl0 = s.hdl0 ∧
    (s.startRequest i h tx).hdl1 = s.hdl1 ∧ (s.startRequest i h tx).hdl2 = s.hdl2 ∧
    (s.startRequest i h tx).life = s.life ∧ (s.startRequest i h tx).phase = .commandIssued ∧
    (s.startRequest i h tx).cur = some i ∧ (s.startRequest i h tx).stage = s.stage ∧
    (s.startRequest i h tx).stat1 = s.stat1 ∧ (s.startRequest i h tx).stat2 = s.stat2 ∧
    (s.startRequest i h tx).buf = State.loadBuf s.buf tx ∧ (s.startRequest i h tx).len = s.len ∧
    (s.startRequest i h tx).rdval1 = s.rdval1 ∧ (s.startRequest i h tx).rdval2 = s.rdval2 ∧
    (s.startRequest i h tx).xferOut = some (h, tx) ∧ (s.startRequest i h tx).res = s.res ∧
    (s.startRequest i h tx).log = s.log ∧ (s.startRequest i h tx).ownsTransport = s.ownsTransport ∧
    (s.startRequest i h tx).dev1 = s.dev1 ∧ (s.startRequest i h tx).dev2 = s.dev2 ∧
    (s.startRequest i h tx).construct = s.construct ∧ (s.startRequest i h tx).requests = s.requests ∧
    (s.startRequest i h tx).answers = s.answers ∧ (s.startRequest i h tx).external = s.external ∧
    (s.startRequest i h tx).calls = s.calls := by
  exact ⟨rfl, rfl, rfl, rfl, rfl, rfl, rfl, rfl, rfl, rfl, rfl, rfl, rfl, rfl, rfl, rfl, rfl, rfl, rfl, rfl, rfl, rfl, rfl, rfl, rfl⟩

@[simp] theorem State.startRelay_fields (s : State) (i : Instr) (d : Dev) :
    (s.startRelay i d).topo = s.topo ∧ (s.startRelay i d).hdl0 = s.hdl0 ∧ (s.startRelay i d).hdl1 = s.hdl1 ∧
    (s.startRelay i d).hdl2 = s.hdl2 ∧ (s.startRelay i d).life = s.life ∧ (s.startRelay i d).phase = .commandIssued ∧
    (s.startRelay i d).cur = some i ∧ (s.startRelay i d).stage = some .readStage ∧
    (s.startRelay i d).stat1 = s.stat1 ∧ (s.startRelay i d).stat2 = s.stat2 ∧
    (s.startRelay i d).buf = State.loadBuf s.buf (encodeSingleFrame s.topo .rd d ctlAddr 0x00) ∧
    (s.startRelay i d).len = s.len ∧ (s.startRelay i d).rdval1 = s.rdval1 ∧ (s.startRelay i d).rdval2 = s.rdval2 ∧
    (s.startRelay i d).xferOut = some (s.handleFor d, encodeSingleFrame s.topo .rd d ctlAddr 0x00) ∧
    (s.startRelay i d).res = s.res ∧ (s.startRelay i d).log = s.log ∧
    (s.startRelay i d).ownsTransport = s.ownsTransport ∧ (s.startRelay i d).dev1 = s.dev1 ∧
    (s.startRelay i d).dev2 = s.dev2 ∧ (s.startRelay i d).construct = s.construct ∧
    (s.startRelay i d).requests = s.requests ∧ (s.startRelay i d).answers = s.answers ∧
    (s.startRelay i d).external = s.external ∧ (s.startRelay i d).calls = s.calls := by
  exact ⟨rfl, rfl, rfl, rfl, rfl, rfl, rfl, rfl, rfl, rfl, rfl, rfl, rfl, rfl, rfl, rfl, rfl, rfl, rfl, rfl, rfl, rfl, rfl, rfl, rfl⟩

@[simp] theorem State.followUp_fields (s : State) (t : Target) (h : Handle) (rx : Frame) :
    (s.followUp t h rx).topo = s.topo ∧ (s.followUp t h rx).hdl0 = s.hdl0 ∧ (s.followUp t h rx).hdl1 = s.hdl1 ∧
    (s.followUp t h rx).hdl2 = s.hdl2 ∧ (s.followUp t h rx).life = s.life ∧
    (s.followUp t h rx).phase = .resultPending ∧ (s.followUp t h rx).cur = s.cur ∧
    (s.followUp t h rx).stage = s.stage ∧ (s.followUp t h rx).stat1 = (s.updateStat t rx).stat1 ∧
    (s.followUp t h rx).stat2 = (s.updateStat t rx).stat2 ∧
    (s.followUp t h rx).buf = State.loadBuf s.buf (diagFrame s.topo) ∧ (s.followUp t h rx).len = s.len ∧
    (s.followUp t h rx).rdval1 = s.rdval1 ∧ (s.followUp t h rx).rdval2 = s.rdval2 ∧
    (s.followUp t h rx).xferOut = some (h, diagFrame s.topo) ∧ (s.followUp t h rx).res = s.res ∧
    (s.followUp t h rx).log = s.log ∧ (s.followUp t h rx).ownsTransport = s.ownsTransport ∧
    (s.followUp t h rx).dev1 = s.dev1 ∧ (s.followUp t h rx).dev2 = s.dev2 ∧
    (s.followUp t h rx).construct = s.construct ∧ (s.followUp t h rx).requests = s.requests ∧
    (s.followUp t h rx).answers = s.answers ∧ (s.followUp t h rx).external = s.external ∧
    (s.followUp t h rx).calls = s.calls := by
  simp [State.followUp]

@[simp] theorem State.completeCommand_fields (s : State) (t : Target) (rx : Frame) (p : Payload) :
    (s.completeCommand t rx p).topo = s.topo ∧ (s.completeCommand t rx p).hdl0 = s.hdl0 ∧
    (s.completeCommand t rx p).hdl1 = s.hdl1 ∧ (s.completeCommand t rx p).hdl2 = s.hdl2 ∧
    (s.completeCommand t rx p).life = s.life ∧ (s.completeCommand t rx p).phase = .idle ∧
    (s.completeCommand t rx p).cur = none ∧ (s.completeCommand t rx p).stage = none ∧
    (s.completeCommand t rx p).stat1 = (s.updateStat t rx).stat1 ∧
    (s.completeCommand t rx p).stat2 = (s.updateStat t rx).stat2 ∧ (s.completeCommand t rx p).buf = s.buf ∧
    (s.completeCommand t rx p).len = s.len ∧ (s.completeCommand t rx p).rdval1 = s.rdval1 ∧
    (s.completeCommand t rx p).rdval2 = s.rdval2 ∧ (s.completeCommand t rx p).xferOut = s.xferOut ∧
    (s.completeCommand t rx p).res = .ok p ∧ (s.completeCommand t rx p).log = s.log ∧
    (s.completeCommand t rx p).ownsTransport = s.ownsTransport ∧ (s.completeCommand t rx p).dev1 = s.dev1 ∧
    (s.completeCommand t rx p).dev2 = s.dev2 ∧ (s.completeCommand t rx p).construct = s.construct ∧
    (s.completeCommand t rx p).requests = s.requests ∧ (s.completeCommand t rx p).answers = s.answers ∧
    (s.completeCommand t rx p).external = s.external ∧ (s.completeCommand t rx p).calls = s.calls := by
  simp [State.completeCommand]

@[simp] theorem State.latchOne_fields (s : State) (d : Dev) (rx : Frame) :
    (s.latchOne d rx).topo = s.topo ∧ (s.latchOne d rx).hdl0 = s.hdl0 ∧ (s.latchOne d rx).hdl1 = s.hdl1 ∧
    (s.latchOne d rx).hdl2 = s.hdl2 ∧ (s.latchOne d rx).life = s.life ∧ (s.latchOne d rx).phase = .resultAvailable ∧
    (s.latchOne d rx).cur = s.cur ∧ (s.latchOne d rx).stage = s.stage ∧ (s.latchOne d rx).stat1 = s.stat1 ∧
    (s.latchOne d rx).stat2 = s.stat2 ∧ (s.latchOne d rx).buf = s.buf ∧ (s.latchOne d rx).len = s.len ∧
    (s.latchOne d rx).rdval1 = decodeRegisterValue s.topo d rx ∧ (s.latchOne d rx).rdval2 = s.rdval2 ∧
    (s.latchOne d rx).xferOut = s.xferOut ∧ (s.latchOne d rx).res = s.res ∧ (s.latchOne d rx).log = s.log ∧
    (s.latchOne d rx).ownsTransport = s.ownsTransport ∧ (s.latchOne d rx).dev1 = s.dev1 ∧
    (s.latchOne d rx).dev2 = s.dev2 ∧ (s.latchOne d rx).construct = s.construct ∧
    (s.latchOne d rx).requests = s.requests ∧ (s.latchOne d rx).answers = s.answers ∧
    (s.latchOne d rx).external = s.external ∧ (s.latchOne d rx).calls = s.calls := by
  exact ⟨rfl, rfl, rfl, rfl, rfl, rfl, rfl, rfl, rfl, rfl, rfl, rfl, rfl, rfl, rfl, rfl, rfl, rfl, rfl, rfl, rfl, rfl, rfl, rfl, rfl⟩

@[simp] theorem State.latchPair_fields (s : State) (rx : Frame) :
    (s.latchPair rx).topo = s.topo ∧ (s.latchPair rx).hdl0 = s.hdl0 ∧ (s.latchPair rx).hdl1 = s.hdl1 ∧
    (s.latchPair rx).hdl2 = s.hdl2 ∧ (s.latchPair rx).life = s.life ∧ (s.latchPair rx).phase = .resultAvailable ∧
    (s.latchPair rx).cur = s.cur ∧ (s.latchPair rx).stage = s.stage ∧
    (s.latchPair rx).stat1 = decodeStatus s.topo .d1 rx ∧ (s.latchPair rx).stat2 = decodeStatus s.topo .d2 rx ∧
    (s.latchPair rx).buf = s.buf ∧ (s.latchPair rx).len = s.len ∧
    (s.latchPair rx).rdval1 = decodeRegisterValue s.topo .d1 rx ∧
    (s.latchPair rx).rdval2 = decodeRegisterValue s.topo .d2 rx ∧ (s.latchPair rx).xferOut = s.xferOut ∧
    (s.latchPair rx).res = s.res ∧ (s.latchPair rx).log = s.log ∧ (s.latchPair rx).ownsTransport = s.ownsTransport ∧
    (s.latchPair rx).dev1 = s.dev1 ∧ (s.latchPair rx).dev2 = s.dev2 ∧ (s.latchPair rx).construct = s.construct ∧
    (s.latchPair rx).requests = s.requests ∧ (s.latchPair rx).answers = s.answers ∧ (s.latchPair rx).external = s.external ∧
    (s.latchPair rx).calls = s.calls := by
  simp [State.latchPair]

@[simp] theorem State.writeStage_fields (s : State) (d : Dev) (m : Byte) (f : RelayFn) :
    (s.writeStage d m f).topo = s.topo ∧ (s.writeStage d m f).hdl0 = s.hdl0 ∧ (s.writeStage d m f).hdl1 = s.hdl1 ∧
    (s.writeStage d m f).hdl2 = s.hdl2 ∧ (s.writeStage d m f).life = s.life ∧
    (s.writeStage d m f).phase = .commandIssued ∧ (s.writeStage d m f).cur = s.cur ∧
    (s.writeStage d m f).stage = some .writeStage ∧ (s.writeStage d m f).stat1 = s.stat1 ∧
    (s.writeStage d m f).stat2 = s.stat2 ∧
    (s.writeStage d m f).buf = State.loadBuf s.buf (encodeSingleFrame s.topo .wr d ctlAddr (relayApply f s.rdval1 m)) ∧
    (s.writeStage d m f).len = s.len ∧ (s.writeStage d m f).rdval1 = s.rdval1 ∧
    (s.writeStage d m f).rdval2 = s.rdval2 ∧
    (s.writeStage d m f).xferOut = some (s.handleFor d, encodeSingleFrame s.topo .wr d ctlAddr (relayApply f s.rdval1 m)) ∧
    (s.writeStage d m f).res = s.res ∧ (s.writeStage d m f).log = s.log ∧
    (s.writeStage d m f).ownsTransport = s.ownsTransport ∧ (s.writeStage d m f).dev1 = s.dev1 ∧
    (s.writeStage d m f).dev2 = s.dev2 ∧ (s.writeStage d m f).construct = s.construct ∧
    (s.writeStage d m f).requests = s.requests ∧ (s.writeStage d m f).answers = s.answers ∧
    (s.writeStage d m f).external = s.external ∧ (s.writeStage d m f).calls = s.calls := by
  exact ⟨rfl, rfl, rfl, rfl, rfl, rfl, rfl, rfl, rfl, rfl, rfl, rfl, rfl, rfl, rfl, rfl, rfl, rfl, rfl, rfl, rfl, rfl, rfl, rfl, rfl⟩

@[simp] theorem State.call_fields (s : State) (c : AdapterCall) :
    (s.call c).topo = s.topo ∧ (s.call c).hdl0 = s.hdl0 ∧ (s.call c).hdl1 = s.hdl1 ∧ (s.call c).hdl2 = s.hdl2 ∧
    (s.call c).life = s.life ∧ (s.call c).phase = s.phase ∧ (s.call c).cur = s.cur ∧ (s.call c).stage = s.stage ∧
    (s.call c).stat1 = s.stat1 ∧ (s.call c).stat2 = s.stat2 ∧ (s.call c).buf = s.buf ∧ (s.call c).len = s.len ∧
    (s.call c).rdval1 = s.rdval1 ∧ (s.call c).rdval2 = s.rdval2 ∧ (s.call c).xferOut = s.xferOut ∧
    (s.call c).res = s.res ∧ (s.call c).log = s.log ∧ (s.call c).ownsTransport = s.ownsTransport ∧
    (s.call c).dev1 = s.dev1 ∧ (s.call c).dev2 = s.dev2 ∧ (s.call c).construct = s.construct ∧
    (s.call c).requests = s.requests ∧ (s.call c).answers = s.answers ∧ (s.call c).external = s.external ∧
    (s.call c).calls = s.calls ++ [c] := by
  exact ⟨rfl, rfl, rfl, rfl, rfl, rfl, rfl, rfl, rfl, rfl, rfl, rfl, rfl, rfl, rfl, rfl, rfl, rfl, rfl, rfl, rfl, rfl, rfl, rfl, rfl⟩

@[simp] theorem State.failInit_fields (s : State) (c : Construction) (e : Int) :
    (s.failInit c e).topo = c.topology ∧ (s.failInit c e).hdl0 = s.hdl0 ∧ (s.failInit c e).hdl1 = s.hdl1 ∧
    (s.failInit c e).hdl2 = s.hdl2 ∧ (s.failInit c e).life = s.life ∧ (s.failInit c e).phase = s.phase ∧
    (s.failInit c e).cur = s.cur ∧ (s.failInit c e).stage = s.stage ∧ (s.failInit c e).stat1 = s.stat1 ∧
    (s.failInit c e).stat2 = s.stat2 ∧ (s.failInit c e).buf = s.buf ∧ (s.failInit c e).len = s.len ∧
    (s.failInit c e).rdval1 = s.rdval1 ∧ (s.failInit c e).rdval2 = s.rdval2 ∧ (s.failInit c e).xferOut = s.xferOut ∧
    (s.failInit c e).res = .err .initializationFailure (some e) ∧ (s.failInit c e).log = s.log ∧
    (s.failInit c e).ownsTransport = s.ownsTransport ∧ (s.failInit c e).dev1 = s.dev1 ∧
    (s.failInit c e).dev2 = s.dev2 ∧ (s.failInit c e).construct = s.construct ∧
    (s.failInit c e).requests = s.requests ∧ (s.failInit c e).answers = s.answers ∧ (s.failInit c e).external = s.external ∧
    (s.failInit c e).calls = s.calls := by
  exact ⟨rfl, rfl, rfl, rfl, rfl, rfl, rfl, rfl, rfl, rfl, rfl, rfl, rfl, rfl, rfl, rfl, rfl, rfl, rfl, rfl, rfl, rfl, rfl, rfl, rfl⟩

end Sys2Proof.Machine
end

