-- ==== Sys2Proof/Laws/Memory.lean ====
section
/-! SUPPORT. The device register space: read after write, and that every operation keeps the canonical form. -/

namespace Sys2Proof.Machine

@[simp] theorem Memory.read_nil (a : Nat) : Memory.read [] a = none := rfl

/-- A read after a write to the same address gives the value written. -/
@[simp] theorem Memory.read_write_same (m : Memory) (a : Nat) (v : Byte) :
    Memory.read (Memory.write m a v) a = some v := by
  induction m with
  | nil => simp [Memory.write, Memory.read]
  | cons c m ih =>
    obtain ⟨k, w⟩ := c
    simp only [Memory.write]
    split
    · simp [Memory.read]
    · split
      · simp [Memory.read]
      · simp [Memory.read, *]

/-- A write leaves every other address alone. -/
theorem Memory.read_write_other (m : Memory) (a b : Nat) (v : Byte) (h : b ≠ a) :
    Memory.read (Memory.write m a v) b = Memory.read m b := by
  induction m with
  | nil => simp [Memory.write, Memory.read, h]
  | cons c m ih =>
    obtain ⟨k, w⟩ := c
    simp only [Memory.write]
    split
    · simp [Memory.read, h]
    · split
      · subst_vars; simp [Memory.read, h]
      · simp [Memory.read, ih]

/-- What the first address of a written memory can be. -/
theorem Memory.wf_cons_write (k : Nat) (w : Byte) (m : Memory) (a : Nat) (v : Byte) (hk : k < a)
    (h : Memory.wf ((k, w) :: m) = true) (hw : Memory.wf (Memory.write m a v) = true) :
    Memory.wf ((k, w) :: Memory.write m a v) = true := by
  cases m with
  | nil => simp [Memory.write, Memory.wf, hk]
  | cons c m =>
    obtain ⟨b, x⟩ := c
    simp only [Memory.wf, Bool.and_eq_true, decide_eq_true_eq] at h
    simp only [Memory.write] at hw ⊢
    split
    · simp_all [Memory.wf]
    · split <;> simp_all [Memory.wf]

theorem Memory.wf_tail (c : Host.Cell) (m : Memory) (h : Memory.wf (c :: m) = true) : Memory.wf m = true := by
  cases m with
  | nil => rfl
  | cons d m => simp_all [Memory.wf]

/-- A write keeps the canonical form. -/
theorem Memory.wf_write (m : Memory) (a : Nat) (v : Byte) (h : Memory.wf m = true) :
    Memory.wf (Memory.write m a v) = true := by
  induction m with
  | nil => rfl
  | cons c m ih =>
    obtain ⟨k, w⟩ := c
    have ht := ih (Memory.wf_tail _ _ h)
    by_cases h1 : a < k
    · simp [Memory.write, h1, Memory.wf, h]
    · by_cases h2 : a = k
      · subst h2
        cases m with
        | nil => simp [Memory.write, Memory.wf]
        | cons d m => simp_all [Memory.write, Memory.wf]
      · have h3 := Memory.wf_cons_write k w m a v (by omega) h ht
        simpa [Memory.write, h1, h2] using h3

/-- A write inside the register space stays inside it. -/
theorem Memory.inSpace_write (m : Memory) (a : Nat) (v : Byte) (ha : 1 ≤ a ∧ a ≤ 8) (h : Memory.inSpace m = true) :
    Memory.inSpace (Memory.write m a v) = true := by
  induction m with
  | nil => simp [Memory.write, Memory.inSpace, ha]
  | cons c m ih =>
    obtain ⟨k, w⟩ := c
    simp only [Memory.inSpace, List.all_cons, Bool.and_eq_true, decide_eq_true_eq] at h ih ⊢
    simp only [Memory.write]
    split
    · simp only [List.all_cons, Bool.and_eq_true, decide_eq_true_eq]
      exact ⟨ha, h⟩
    · split
      · simp only [List.all_cons, Bool.and_eq_true, decide_eq_true_eq]
        exact ⟨ha, h.2⟩
      · simp only [List.all_cons, Bool.and_eq_true, decide_eq_true_eq]
        exact ⟨h.1, ih h.2⟩

/-- The register space at reset has the canonical form: nothing is listed. -/
theorem Device.unknown_fits : Device.unknown.fits = true := rfl

theorem Device.onDiag_fits (data : Byte) (x : Device) (h : x.fits = true) : (x.onDiag data).fits = true := by
  unfold Device.onDiag
  split
  · exact h
  · exact Device.unknown_fits

theorem Device.onRead_fits (a : Addr6) (data : Byte) (x : Device) (h : x.fits = true) :
    (x.onRead a data).fits = true := by
  unfold Device.onRead
  split
  · exact h
  · exact Device.unknown_fits

theorem Device.onWrite_fits (a : Addr6) (v : Byte) (x : Device) (h : x.fits = true) : (x.onWrite a v).fits = true := by
  unfold Device.onWrite
  split
  · rename_i ha
    simp only [namedAddress, Bool.and_eq_true, decide_eq_true_eq] at ha
    simp only [Device.fits, Bool.and_eq_true] at h ⊢
    exact ⟨Memory.wf_write _ _ _ h.1, Memory.inSpace_write _ _ _ ⟨ha.1, by omega⟩ h.2⟩
  · exact Device.unknown_fits

theorem Device.onReset_fits (a : Addr6) (data : Byte) (x : Device) : (x.onReset a data).fits = true := rfl

/-- A register that a device changes by itself keeps the canonical form (R67). -/
theorem Device.register_fits (k : RegIndex) (v : Byte) (x : Device) (h : x.fits = true) :
    ({ x with regs := x.regs.write (k.val + 1) v } : Device).fits = true := by
  simp only [Device.fits, Bool.and_eq_true] at h ⊢
  exact ⟨Memory.wf_write _ _ _ h.1, Memory.inSpace_write _ _ _ ⟨by omega, by have := k.isLt; omega⟩ h.2⟩

/-- Every device word keeps the canonical form of the register space. -/
theorem Device.receive_fits (cmd data : Byte) (x : Device) (h : x.fits = true) : (x.receive cmd data).fits = true := by
  unfold Device.receive
  split
  · split
    · exact Device.onDiag_fits _ _ h
    · exact Device.unknown_fits
  · exact Device.onRead_fits _ _ _ h
  · exact Device.onReset_fits _ _ _
  · exact Device.onWrite_fits _ _ _ h

end Sys2Proof.Machine
end

