-- ==== Sys2Proof/Laws/Codec.lean ====
section
/-! SUPPORT. The command byte, the frames and the operand checks. -/

namespace Sys2Proof

theorem validAddress_iff (a : Nat) : validAddress a = true ↔ 1 ≤ a ∧ a ≤ 8 := by
  rw [validAddress, Bool.and_eq_true, decide_eq_true_eq, decide_eq_true_eq]; rfl

theorem Opcode.ofCode_code (op : Opcode) : Opcode.ofCode op.code = op := by cases op <;> rfl

/-- A command byte of a 6-bit address decodes to its parts. -/
theorem decodeCommand_commandByte (op : Opcode) (a : Addr6) : decodeCommand (commandByte op (a.setWidth 8)) = (op, a) := by
  cases op <;> revert a <;> decide

/-- Every byte is the command byte of its parts. -/
theorem commandByte_decodeCommand (b : Byte) :
    commandByte (decodeCommand b).1 ((decodeCommand b).2.setWidth 8) = b := by
  revert b; decide

end Sys2Proof

namespace Sys2Proof.Machine

/-- An address in 1..8 lies in the low six bits. -/
theorem setWidth_address (a : Byte) (h : a.toNat ≤ 8) : (a.setWidth 6).setWidth 8 = a := by
  apply BitVec.eq_of_toNat_eq
  simp only [BitVec.toNat_setWidth]
  omega

theorem decodeCommand_address (op : Opcode) (a : Byte) (h : a.toNat ≤ 8) :
    decodeCommand (commandByte op a) = (op, a.setWidth 6) := by
  have := decodeCommand_commandByte op (a.setWidth 6)
  rwa [setWidth_address a h] at this

/-- The command bytes of valid addresses are ones the core may emit. -/
theorem emittedCommand_commandByte (op : Opcode) (a : Byte) (hop : op ≠ .diag) (h : validAddress a.toNat = true) :
    emittedCommand (commandByte op a) = true := by
  have h' := (validAddress_iff _).1 h
  have hd := decodeCommand_address op a h'.2
  have ha : (a.setWidth 6).toNat = a.toNat := by simp only [BitVec.toNat_setWidth]; omega
  simp only [emittedCommand, hd, ha, h]
  cases op <;> simp_all

@[simp] theorem diagFrame_independent : diagFrame .independent = [0x00, 0x00] := rfl
@[simp] theorem diagFrame_daisyChained : diagFrame .daisyChained = [0x00, 0x00, 0x00, 0x00] := rfl

@[simp] theorem encodeSingleFrame_independent (op : Opcode) (d : Dev) (a v : Byte) :
    encodeSingleFrame .independent op d a v = [commandByte op a, dataByte op v] := rfl
@[simp] theorem encodeSingleFrame_d1 (op : Opcode) (a v : Byte) :
    encodeSingleFrame .daisyChained op .d1 a v = [0x00, 0x00, commandByte op a, dataByte op v] := rfl
@[simp] theorem encodeSingleFrame_d2 (op : Opcode) (a v : Byte) :
    encodeSingleFrame .daisyChained op .d2 a v = [commandByte op a, dataByte op v, 0x00, 0x00] := rfl

/-- Every frame of a single-device command has FRAME_LEN(topo) bytes (R55). -/
theorem encodeSingleFrame_length (topo : Topology) (op : Opcode) (d : Dev) (a v : Byte) :
    (encodeSingleFrame topo op d a v).length = Config.frameLen topo := by
  cases topo <;> cases d <;> rfl

theorem emittedFrame_single (topo : Topology) (op : Opcode) (d : Dev) (a v : Byte) (hop : op ≠ .diag)
    (h : validAddress a.toNat = true) : emittedFrame topo (encodeSingleFrame topo op d a v) = true := by
  have he := emittedCommand_commandByte op a hop h
  have h0 : emittedCommand 0x00 = true := rfl
  cases topo <;> cases d <;>
    simp [emittedFrame, frameByte, cmdPos, Config.frameLen] <;> simp_all

theorem emittedFrame_pair (op : Opcode) (a1 v1 a2 v2 : Byte) (hop : op ≠ .diag) (h1 : validAddress a1.toNat = true)
    (h2 : validAddress a2.toNat = true) : emittedFrame .daisyChained (encodePairFrame op a1 v1 a2 v2) = true := by
  have e1 := emittedCommand_commandByte op a1 hop h1
  have e2 := emittedCommand_commandByte op a2 hop h2
  simp [emittedFrame, encodePairFrame, frameByte, cmdPos, Config.frameLen, e1, e2]

theorem emittedFrame_diag (topo : Topology) : emittedFrame topo (diagFrame topo) = true := by
  cases topo <;> decide

/-! ### The checks -/

@[simp] theorem firstError_nil : firstError [] = none := rfl
@[simp] theorem firstError_some (k : ErrorKind) (l : List (Option ErrorKind)) : firstError (some k :: l) = some k := rfl
@[simp] theorem firstError_none (l : List (Option ErrorKind)) : firstError (none :: l) = firstError l := rfl

theorem firstError_eq_none (l : List (Option ErrorKind)) : firstError l = none ↔ ∀ c ∈ l, c = none := by
  induction l with
  | nil => simp
  | cons c l ih => cases c <;> simp [ih]

theorem checkDevice_eq_none (dev : Byte) : checkDevice dev = none ↔ dev = 1 ∨ dev = 2 := by
  unfold checkDevice
  split <;> simp_all

theorem checkAddress_eq_none (a : Byte) : checkAddress a = none ↔ validAddress a.toNat = true := by
  simp [checkAddress]

theorem checkTopology_eq_none (topo : Topology) : checkTopology topo = none ↔ topo = .daisyChained := by
  cases topo <;> simp [checkTopology]

theorem validRelay_iff (r : Byte) : validRelay r = true ↔ 1 ≤ r.toNat ∧ r.toNat ≤ 8 := by
  rw [validRelay, Bool.and_eq_true, decide_eq_true_eq, decide_eq_true_eq]; rfl

/-- The mask of one valid relay (R162). -/
theorem normalise_singleton (r : Byte) (h : validRelay r = true) : normalise (.list [r]) = .ok (relayBit r) := by
  simp [normalise, h, listMask]

theorem normalise_singleton_invalid (r : Byte) (h : validRelay r = false) :
    normalise (.list [r]) = .error .invalidRelay := by
  simp [normalise, h]

/-- `normalise` fails with InvalidRelay only (R161). -/
theorem normalise_error (sel : Selection) (k : ErrorKind) (h : normalise sel = .error k) : k = .invalidRelay := by
  cases sel <;> simp only [normalise] at h
  · cases h
  · split at h <;> simp_all
  · split at h <;> simp_all

theorem checkRelay_eq_none (r : Byte) : checkRelay r = none ↔ validRelay r = true := by
  cases h : validRelay r <;> simp [checkRelay, normalise_singleton, normalise_singleton_invalid, h]

theorem checkSelection_eq_none (sel : Selection) : checkSelection sel = none ↔ ∃ m, normalise sel = .ok m := by
  cases h : normalise sel <;> simp [checkSelection, h]

theorem maskOf_eq (sel : Selection) (m : Byte) (h : normalise sel = .ok m) : maskOf sel = m := by
  simp [maskOf, h]

/-! ### Bits -/

/-- The bits of a relay's mask bit (R160). -/
theorem bit_getLsbD (n k : Nat) (hn : n < 8) (hk : k < 8) : ((1 : Byte) <<< n).getLsbD k = decide (k = n) := by
  have h : ∀ n < 8, ∀ k < 8, ((1 : Byte) <<< n).getLsbD k = decide (k = n) := by decide
  exact h n hn k hk

theorem relayBit_getLsbD (r : Byte) (k : Nat) (hr : validRelay r = true) (hk : k < 8) :
    (relayBit r).getLsbD k = decide (r.toNat = k + 1) := by
  obtain ⟨h1, h8⟩ := (validRelay_iff r).1 hr
  rw [relayBit, bit_getLsbD _ _ (by omega) hk]
  congr 1
  exact propext ⟨fun h => by omega, fun h => by omega⟩

/-- A diagnosis word is its two bytes, the command-position byte first (R53, R106). -/
theorem decodeStatus_append (topo : Topology) (d : Dev) (rx : Frame) :
    decodeStatus topo d rx = frameByte rx (cmdPos topo d) ++ frameByte rx (dataPos topo d) := by
  have h : ∀ x y : Byte, ((x.setWidth 16 : Half) <<< 8) ||| y.setWidth 16 = x ++ y := by
    intro x y
    apply BitVec.eq_of_toNat_eq
    have e : (x ++ y : BitVec (8 + 8)).toNat = x.toNat <<< 8 ||| y.toNat := BitVec.toNat_append x y
    have hx : x.toNat <<< 8 < 2 ^ 16 := by rw [Nat.shiftLeft_eq]; omega
    rw [BitVec.toNat_or, BitVec.toNat_shiftLeft, BitVec.toNat_setWidth, BitVec.toNat_setWidth,
      Nat.mod_eq_of_lt (a := x.toNat) (by omega), Nat.mod_eq_of_lt (a := y.toNat) (by omega), Nat.mod_eq_of_lt hx]
    exact e.symm
  exact h _ _

/-- A validated request's command frame is one the core may send. -/
theorem emittedFrame_command (topo : Topology) (i : Instr) (j : Job) (stage : Option Stage) (v : Byte)
    (hj : jobOf i = some j) (hv : validate topo i = none) : emittedFrame topo (commandFrame topo stage v j) = true := by
  have hc : validAddress ctlAddr.toNat = true := by decide
  cases i <;> simp only [jobOf, Option.some.injEq, reduceCtorEq] at hj <;> subst hj <;>
    simp only [validate, firstError_eq_none, List.mem_cons, List.not_mem_nil, or_false, forall_eq_or_imp, forall_eq,
      checkAddress_eq_none, checkTopology_eq_none] at hv <;>
    simp only [commandFrame]
  case read1 => exact emittedFrame_single _ _ _ _ _ (by decide) hv.2
  case read2 => rw [hv.1]; exact emittedFrame_pair _ _ _ _ _ (by decide) hv.2.1 hv.2.2
  case write1 => exact emittedFrame_single _ _ _ _ _ (by decide) hv.2
  case write2 => rw [hv.1]; exact emittedFrame_pair _ _ _ _ _ (by decide) hv.2.1 hv.2.2
  case reset1 => exact emittedFrame_single _ _ _ _ _ (by decide) hv.2
  case reset2 => rw [hv.1]; exact emittedFrame_pair _ _ _ _ _ (by decide) hv.2.1 hv.2.2
  all_goals split <;> exact emittedFrame_single _ _ _ _ _ (by decide) hc

end Sys2Proof.Machine
end

