-- ==== Sys2Proof/Laws/Accept.lean ====
section
/-! SUPPORT. What ACCEPT can do, and what executing an instruction can do: the inversion lemmas of `State.accept` and
`exec`. -/

namespace Sys2Proof.Machine

theorem State.ready_iff (s : State) : s.ready = true ↔ s.life = .live ∧ s.phase = .idle := by
  simp [State.ready]

/-- A validated request at a ready port has its effect. -/
theorem State.accept_valid (s : State) (i : Instr) (f : State → State) (hr : s.ready = true)
    (hv : validate s.topo i = none) : s.accept i f = .next (f s) := by
  obtain ⟨hl, hp⟩ := s.ready_iff.1 hr
  simp [State.accept, hl, hp, hv]

/-- A request that fails a check at a ready port writes `res` alone (R185). -/
theorem State.accept_invalid (s : State) (i : Instr) (f : State → State) (k : ErrorKind) (hr : s.ready = true)
    (hv : validate s.topo i = some k) : s.accept i f = .next (s.setRes (.err k none)) := by
  obtain ⟨hl, hp⟩ := s.ready_iff.1 hr
  simp [State.accept, hl, hp, hv]

/-- A busy port holds (R196). -/
theorem State.accept_busy (s : State) (i : Instr) (f : State → State) (hl : s.life = .live) (hp : s.phase ≠ .idle) :
    s.accept i f = .next s := by
  cases h : s.phase <;> simp_all [State.accept]

/-- Outside Live a request is refused (R195). -/
theorem State.accept_notLive (s : State) (i : Instr) (f : State → State) (hl : s.life ≠ .live) :
    s.accept i f = .refused .notLive := by
  cases h : s.life <;> simp_all [State.accept]

/-- Everything ACCEPT can do when it answers a next state. -/
theorem State.accept_cases {s t : State} {i : Instr} {f : State → State} (h : s.accept i f = .next t) :
    (s.ready = true ∧ validate s.topo i = none ∧ t = f s) ∨
    (s.ready = true ∧ ∃ k, validate s.topo i = some k ∧ t = s.setRes (.err k none)) ∨
    (s.life = .live ∧ s.phase ≠ .idle ∧ t = s) := by
  by_cases hl : s.life = .live
  · by_cases hp : s.phase = .idle
    · have hr := s.ready_iff.2 ⟨hl, hp⟩
      cases hv : validate s.topo i with
      | none =>
        rw [State.accept_valid s i f hr hv] at h
        exact .inl ⟨hr, rfl, by cases h; rfl⟩
      | some k =>
        rw [State.accept_invalid s i f k hr hv] at h
        exact .inr (.inl ⟨hr, k, rfl, by cases h; rfl⟩)
    · rw [State.accept_busy s i f hl hp] at h
      exact .inr (.inr ⟨hl, hp, by cases h; rfl⟩)
  · rw [State.accept_notLive s i f hl] at h
    cases h

theorem State.accept_not_fault (s : State) (i : Instr) (f : State → State) (e : Fault) : s.accept i f ≠ .fault e := by
  unfold State.accept
  split <;> (try split) <;> simp

/-- What a request does once it is accepted and validated: the queries and TEARDOWN complete, every other request issues its
first transfer (R120). -/
def acceptedEffect (i : Instr) (s : State) : State :=
  match i with
  | .diag _ _ => s
  | .rd _ _ _ => s
  | .rst _ _ _ => s
  | .wr _ _ _ => s
  | .read1 dev a1 => s.startRequest i (s.handleFor (devOf dev)) (encodeSingleFrame s.topo .rd (devOf dev) a1 0x00)
  | .read2 a1 a2 => s.startRequest i s.hdl0 (encodePairFrame .rd a1 0x00 a2 0x00)
  | .write1 dev a1 v1 => s.startRequest i (s.handleFor (devOf dev)) (encodeSingleFrame s.topo .wr (devOf dev) a1 v1)
  | .write2 a1 v1 a2 v2 => s.startRequest i s.hdl0 (encodePairFrame .wr a1 v1 a2 v2)
  | .reset1 dev a1 => s.startRequest i (s.handleFor (devOf dev)) (encodeSingleFrame s.topo .rst (devOf dev) a1 0x00)
  | .reset2 a1 a2 => s.startRequest i s.hdl0 (encodePairFrame .rst a1 0x00 a2 0x00)
  | .relayOn dev _ => s.startRelay i (devOf dev)
  | .relayOff dev _ => s.startRelay i (devOf dev)
  | .relaysOn dev _ => s.startRelay i (devOf dev)
  | .relaysOff dev _ => s.startRelay i (devOf dev)
  | .status dev => s.setRes (.ok (.word (s.stat (devOf dev))))
  | .health dev relay => s.setRes (.ok (.code (healthCode (s.stat (devOf dev)) relay)))
  | .teardown => s.teardown

/-- The four ways a validated request begins: its first transfer as a command, as the read stage of a relay request, or,
without the bus, a result or the teardown. -/
theorem acceptedEffect_cases (i : Instr) (s : State) :
    (∃ j, jobOf i = some j ∧ (∀ st, stageFits j st = true ↔ st = none) ∧
      acceptedEffect i s = s.startRequest i (s.handleOf (jobTarget j)) (commandFrame s.topo none s.rdval1 j)) ∨
    (∃ d m f, jobOf i = some (.relay d m f) ∧ acceptedEffect i s = s.startRelay i d) ∨
    (jobOf i = none ∧ ∃ p, acceptedEffect i s = s.setRes (.ok p)) ∨
    (jobOf i = none ∧ acceptedEffect i s = s.teardown) ∨
    (isRequest i = false ∧ acceptedEffect i s = s) := by
  cases i
  case diag | rd | rst | wr => exact .inr (.inr (.inr (.inr ⟨rfl, rfl⟩)))
  case status | health => exact .inr (.inr (.inl ⟨rfl, _, rfl⟩))
  case teardown => exact .inr (.inr (.inr (.inl ⟨rfl, rfl⟩)))
  case relayOn | relayOff | relaysOn | relaysOff => exact .inr (.inl ⟨_, _, _, rfl, rfl⟩)
  all_goals exact .inl ⟨_, rfl, fun st => by simp [stageFits], rfl⟩

/-- Every request is ACCEPT with that effect. -/
theorem exec_request (i : Instr) (s : State) (h : isRequest i = true) : exec i s = s.accept i (acceptedEffect i) := by
  cases i <;> first | rfl | (simp [isRequest] at h)

/-- What a wire command makes of the device that receives it. -/
def wireEffect (i : Instr) (x : Device) : Device :=
  match i with
  | .diag _ data => x.onDiag data
  | .rd _ a data => x.onRead a data
  | .rst _ a data => x.onReset a data
  | .wr _ a v => x.onWrite a v
  | _ => x

theorem wireEffect_fits (i : Instr) (x : Device) (h : x.fits = true) : (wireEffect i x).fits = true := by
  cases i <;> simp only [wireEffect] <;>
    first
      | exact h
      | exact Device.onDiag_fits _ _ h
      | exact Device.onRead_fits _ _ _ h
      | exact Device.onReset_fits _ _ _
      | exact Device.onWrite_fits _ _ _ h

/-- Every wire command changes its device and nothing else. -/
theorem exec_wire (i : Instr) (s : State) (h : isRequest i = false) :
    ∃ d, exec i s = .next (s.setDevice d (wireEffect i (s.device d))) := by
  cases i <;> first | exact ⟨_, rfl⟩ | (simp [isRequest] at h)

/-- Everything executing an instruction can do when it answers a next state. -/
theorem exec_cases {s t : State} {i : Instr} (h : exec i s = .next t) :
    (isRequest i = false ∧ ∃ d, t = s.setDevice d (wireEffect i (s.device d))) ∨
    (isRequest i = true ∧ s.ready = true ∧ validate s.topo i = none ∧ t = acceptedEffect i s) ∨
    (isRequest i = true ∧ s.ready = true ∧ ∃ k, validate s.topo i = some k ∧ t = s.setRes (.err k none)) ∨
    (isRequest i = true ∧ s.life = .live ∧ s.phase ≠ .idle ∧ t = s) := by
  cases hi : isRequest i with
  | false =>
    obtain ⟨d, hd⟩ := exec_wire i s hi
    rw [hd] at h
    exact .inl ⟨rfl, d, by cases h; rfl⟩
  | true =>
    rw [exec_request i s hi] at h
    rcases State.accept_cases h with h | h | h
    · exact .inr (.inl ⟨rfl, h⟩)
    · exact .inr (.inr (.inl ⟨rfl, h⟩))
    · exact .inr (.inr (.inr ⟨rfl, h⟩))

theorem exec_not_fault (i : Instr) (s : State) (e : Fault) : exec i s ≠ .fault e := by
  cases hi : isRequest i with
  | false => obtain ⟨d, hd⟩ := exec_wire i s hi; simp [hd]
  | true => rw [exec_request i s hi]; exact State.accept_not_fault _ _ _ _

/-- A device word that spells a wire command has, as an instruction, the effect it has at its device. -/
theorem exec_decodeWire (w : WireWord) (i : Instr) (s : State) (h : decodeWire w = .ok i) :
    exec i s = .next (s.receiveWord w) := by
  obtain ⟨d, c, data⟩ := w
  unfold decodeWire at h
  unfold State.receiveWord Device.receive
  rcases hd : decodeCommand c with ⟨op, a⟩
  cases op <;> simp only [hd] at h ⊢
  · split at h <;> cases h
    rename_i ha
    simp only [ha, if_true]
    rfl
  all_goals cases h; rfl

/-- A device word never spells a request, a request record never a wire command. -/
theorem decodeWire_isRequest (w : WireWord) (i : Instr) (h : decodeWire w = .ok i) : isRequest i = false := by
  unfold decodeWire at h
  split at h <;> (try split at h) <;> first | (cases h; rfl) | cases h

theorem decodeRequest_isRequest (r : RequestRecord) (i : Instr) (h : decodeRequest r = .ok i) : isRequest i = true := by
  unfold decodeRequest at h
  split at h <;>
    first
      | (cases h; done)
      | (cases h; rfl)
      | (cases hs : decodeSelection r.sel <;> simp only [hs, Except.map] at h <;> cases h; rfl)

end Sys2Proof.Machine
end

