-- ==== Sys2Proof/Laws/Decode.lean ====
section
/-! SUPPORT. The bytes of a port word parse back to it, and each level decodes what it encodes. -/

namespace Sys2Proof

theorem isCommandByte_zero : isCommandByte 0 = true := by decide

/-- RD, RST and WR bytes are told from requests by their opcode bits (R70). -/
theorem isCommandByte_commandByte (op : Opcode) (a : Addr6) (h : op ≠ .diag) :
    isCommandByte (commandByte op (a.setWidth 8)) = true := by
  cases op
  · exact absurd rfl h
  all_goals revert a; decide

theorem commandByte_diag_zero : commandByte .diag 0 = 0 := by decide

/-- The bytes of a device word whose first byte is a command byte parse back to it. -/
theorem parse_wire (w : WireWord) (h : isCommandByte w.cmd = true) : parse (PortWord.wire w).bytes = .ok (.wire w) := by
  obtain ⟨d, cmd, data⟩ := w
  cases d <;> simp [parse, PortWord.bytes, h, parseWire, parseDev, Dev.selector, Except.map]

theorem map_boolBytes (bs : List Bool) : (bs.map fun b => if b then (1 : Byte) else 0).map (· == 1) = bs := by
  induction bs with
  | nil => rfl
  | cons b bs ih => cases b <;> simp_all

theorem all_boolBytes (bs : List Bool) : (bs.map fun b => if b then (1 : Byte) else 0).all isBoolByte = true := by
  induction bs with
  | nil => rfl
  | cons b bs ih => cases b <;> simp_all [isBoolByte]

/-- A selection field parses back. -/
theorem parseSelField_bytes (sel : Selection) :
    ∃ tag payload, sel.field.bytes = tag :: payload ∧ parseSelField tag payload = .ok sel.field := by
  cases sel with
  | mask m => exact ⟨_, _, rfl, rfl⟩
  | bools bs =>
    refine ⟨_, _, rfl, ?_⟩
    show (if _ then Except.ok _ else _) = _
    rw [if_pos (all_boolBytes bs), map_boolBytes]
    rfl
  | list rs => exact ⟨_, _, rfl, rfl⟩

/-- The bytes of a request record with an operation code other than 0x0 parse back to it. -/
theorem parse_request (r : RequestRecord) (sel : Selection) (hs : r.sel = sel.field) (ho : r.op ≠ 0) :
    parse (PortWord.request r).bytes = .ok (.request r) := by
  obtain ⟨op, dev, a1, a2, v1, v2, relay, f⟩ := r
  simp only at hs ho
  subst hs
  obtain ⟨tag, payload, hb, hp⟩ := parseSelField_bytes sel
  have h1 : isCommandByte (op.setWidth 8) = false := by revert op; decide
  have h2 : (op.setWidth 8).extractLsb' 4 4 = 0 := by revert op; decide
  have h3 : (op.setWidth 8).extractLsb' 0 4 = op := by revert op; decide
  simp [parse, PortWord.bytes, h1, hb, parseRequest, h2, h3, hp, Except.map]

@[simp] theorem decodeSelection_field (sel : Selection) : decodeSelection sel.field = .ok sel := by cases sel <;> rfl

/-- Each wire command decodes from its device word (R70, R71, R73). -/
theorem decodeWire_encode (d : Dev) (op : Opcode) (a : Addr6) (data : Byte) :
    decodeWire { dev := d, cmd := commandByte op (a.setWidth 8), data } =
      match op with
      | .diag => if a = 0 then .ok (.diag d data) else .error .undefinedCommandByte
      | .rd => .ok (.rd d a data)
      | .rst => .ok (.rst d a data)
      | .wr => .ok (.wr d a data) := by
  unfold decodeWire
  rw [decodeCommand_commandByte]
  cases op <;> rfl

end Sys2Proof
end

