-- ==== Sys2Proof/Laws/Step.lean ====
section
/-! SUPPORT. What ANSWER, FINISH, INIT and a step can do: their inversion lemmas. Every later proof about a step cites
these and unfolds nothing. -/

namespace Sys2Proof.Machine

/-- Everything the post-action of a command transfer can do (R120 a, b). -/
theorem State.afterCommand_cases {s t : State} {j : Job} {h : Handle} {rx : Frame} (hs : s.afterCommand j h rx = .next t) :
    (t = s.followUp (jobTarget j) h rx ∧ ((∃ d a, j = .readOne d a) ∨ (∃ a1 a2, j = .readPair a1 a2) ∨
      (∃ d m f, j = .relay d m f ∧ s.stage = some .readStage))) ∨
    (∃ p, t = s.completeCommand (jobTarget j) rx p) := by
  cases j <;> simp only [State.afterCommand] at hs
  case readOne => cases hs; exact .inl ⟨rfl, .inl ⟨_, _, rfl⟩⟩
  case readPair => cases hs; exact .inl ⟨rfl, .inr (.inl ⟨_, _, rfl⟩)⟩
  case relay =>
    split at hs <;> cases hs
    · exact .inl ⟨rfl, .inr (.inr ⟨_, _, _, rfl, by assumption⟩)⟩
    · exact .inr ⟨_, rfl⟩
  all_goals cases hs; exact .inr ⟨_, rfl⟩

/-- Everything the post-action of a follow-up transfer can do (R120 c). -/
theorem State.afterFollowUp_cases {s t : State} {j : Job} {rx : Frame} (hs : s.afterFollowUp j rx = .next t) :
    (∃ d, jobTarget j = .one d ∧ t = s.latchOne d rx) ∨ ((∃ a1 a2, j = .readPair a1 a2) ∧ t = s.latchPair rx) := by
  cases j <;> simp only [State.afterFollowUp] at hs <;> cases hs
  · exact .inl ⟨_, rfl, rfl⟩
  · exact .inr ⟨⟨_, _, rfl⟩, rfl⟩
  · exact .inl ⟨_, rfl, rfl⟩

/-- Everything ANSWER can do when it answers a next state. -/
theorem State.answer_cases {s t : State} (hs : s.answer = .next t) :
    ∃ h tx j, s.xferOut = some (h, tx) ∧ s.cur.bind jobOf = some j ∧
      ((s.answers = [] ∧ t = s) ∨
       ∃ a rest, s.answers = a :: rest ∧
        ((a.result < 0 ∧ t = (s.completeFail (jobTarget j) h tx a rest).raise .transportFailure (some a.result)) ∨
         (0 ≤ a.result ∧ s.phase = .commandIssued ∧
          (s.completeOk (jobTarget j) h tx a rest).afterCommand j h (s.received a) = .next t) ∨
         (0 ≤ a.result ∧ s.phase = .resultPending ∧
          (s.completeOk (jobTarget j) h tx a rest).afterFollowUp j (s.received a) = .next t))) := by
  unfold State.answer at hs
  split at hs
  · rename_i h tx j a rest hx hj ha
    refine ⟨h, tx, j, hx, hj, .inr ⟨a, rest, ha, ?_⟩⟩
    unfold State.answerWith at hs
    split at hs
    · cases hs; exact .inl ⟨by assumption, rfl⟩
    · rename_i hn
      have hn' : 0 ≤ a.result := by omega
      split at hs
      · exact .inr (.inl ⟨hn', by assumption, hs⟩)
      · exact .inr (.inr ⟨hn', by assumption, hs⟩)
      · cases hs
      · cases hs
  · rename_i x j hx hj ha
    cases hs
    exact ⟨x.1, x.2, j, hx, hj, .inl ⟨ha, rfl⟩⟩
  · cases hs
  · cases hs

/-- Everything FINISH can do when it answers a next state. -/
theorem State.finish_cases {s t : State} (hs : s.finish = .next t) :
    (∃ p, t = s.finishOk p) ∨
    (∃ d m f, s.cur.bind jobOf = some (.relay d m f) ∧ s.stage = some .readStage ∧ t = s.writeStage d m f) := by
  unfold State.finish at hs
  split at hs <;> (try (cases hs; done))
  · cases hs; exact .inl ⟨_, rfl⟩
  · cases hs; exact .inl ⟨_, rfl⟩
  · split at hs <;> cases hs
    exact .inr ⟨_, _, _, by assumption, by assumption, rfl⟩

/-- Everything INIT can do. -/
theorem State.init_cases (s : State) (c : Construction) :
    (∃ calls h0 h1 h2, s.init c = { s with calls := calls }.constructed c h0 h1 h2) ∨
    (∃ calls e, s.init c = { s with calls := calls }.failInit c e) := by
  unfold State.init
  split
  · split
    · exact .inr ⟨_, _, rfl⟩
    · split
      · exact .inr ⟨_, _, rfl⟩
      · exact .inl ⟨_, _, _, _, rfl⟩
  · split
    · exact .inr ⟨_, _, rfl⟩
    · exact .inl ⟨_, _, _, _, rfl⟩

/-- An event at a device is the whole step: its device changes, in the state without the event (R67). -/
theorem step_external {s : State} {e : ExternalEvent} {es : List ExternalEvent} (hw : s.external = e :: es) :
    step s = .next ({ s with external := es }.externalChange e) := by
  cases e with
  | word w =>
    cases hd : decodeWire w with
    | ok i =>
      simp only [step, fetch, hw, fetchExternal, hd]
      exact exec_decodeWire w i _ hd
    | error _ => simp only [step, fetch, hw, fetchExternal, hd]; rfl
  | register d k v => simp only [step, fetch, hw, fetchExternal]
  | latch d l => simp only [step, fetch, hw, fetchExternal]
  | reset d => simp only [step, fetch, hw, fetchExternal]

/-- Everything a step can do when it answers a next state. -/
theorem step_cases {s t : State} (hs : step s = .next t) :
    (∃ e es, s.external = e :: es ∧ t = { s with external := es }.externalChange e) ∨
    (s.external = [] ∧
      (t = s ∨
       (∃ c, s.life = .unconstructed ∧ s.construct = some c ∧ t = { s with construct := none }.init c) ∨
       (∃ r rs i, s.ready = true ∧ s.requests = r :: rs ∧ decodeRequest r = .ok i ∧
        exec i { s with requests := rs } = .next t) ∨
       (s.life = .live ∧ (s.phase = .commandIssued ∨ s.phase = .resultPending) ∧ s.answer = .next t) ∨
       (s.life = .live ∧ s.phase = .resultAvailable ∧ s.finish = .next t))) := by
  obtain ⟨e, es, hw⟩ | hw : (∃ e es, s.external = e :: es) ∨ s.external = [] := by cases s.external <;> simp
  · rw [step_external hw] at hs
    cases hs
    exact .inl ⟨e, es, hw, rfl⟩
  · refine .inr ⟨hw, ?_⟩
    simp only [step, fetch, hw] at hs
    split at hs
    · rename_i i s' hf
      refine .inr (.inr (.inl ?_))
      split at hf
      · unfold fetchUnconstructed at hf
        split at hf <;> cases hf
      · unfold fetchTornDown at hf
        split at hf <;> cases hf
      · rename_i hl hp
        unfold fetchRequest at hf
        split at hf
        · cases hf
        · split at hf <;> cases hf
          exact ⟨_, _, _, s.ready_iff.2 ⟨hl, hp⟩, by assumption, by assumption, hs⟩
      all_goals cases hf
    · rename_i o hf
      subst hs
      split at hf
      · rename_i hl
        unfold fetchUnconstructed at hf
        split at hf <;> cases hf
        · exact .inr (.inl ⟨_, hl, by assumption, rfl⟩)
        · exact .inl rfl
      · unfold fetchTornDown at hf
        split at hf <;> cases hf
        exact .inl rfl
      · unfold fetchRequest at hf
        split at hf
        · cases hf; exact .inl rfl
        · split at hf <;> cases hf
      · rename_i hl hp
        exact .inr (.inr (.inr (.inl ⟨hl, .inl hp, by injection hf⟩)))
      · rename_i hl hp
        exact .inr (.inr (.inr (.inl ⟨hl, .inr hp, by injection hf⟩)))
      · rename_i hl hp
        exact .inr (.inr (.inr (.inr ⟨hl, hp, by injection hf⟩)))

/-! ### Which step is taken -/

theorem step_request {s : State} {r : RequestRecord} {rs : List RequestRecord} {i : Instr} (hr : s.ready = true)
    (hw : s.external = []) (hq : s.requests = r :: rs) (hd : decodeRequest r = .ok i) :
    step s = exec i { s with requests := rs } := by
  obtain ⟨hl, hp⟩ := s.ready_iff.1 hr
  simp [step, fetch, fetchRequest, hw, hl, hp, hq, hd]

theorem step_deviceWord {s : State} {w : WireWord} {es : List ExternalEvent} {i : Instr}
    (hw : s.external = .word w :: es) (hd : decodeWire w = .ok i) : step s = exec i { s with external := es } := by
  simp [step, fetch, fetchExternal, hw, hd]

theorem step_answer {s : State} (hw : s.external = []) (hl : s.life = .live)
    (hp : s.phase = .commandIssued ∨ s.phase = .resultPending) : step s = s.answer := by
  rcases hp with hp | hp <;> simp [step, fetch, hw, hl, hp]

theorem step_finish {s : State} (hw : s.external = []) (hl : s.life = .live) (hp : s.phase = .resultAvailable) :
    step s = s.finish := by
  simp [step, fetch, hw, hl, hp]

theorem step_init {s : State} {c : Construction} (hw : s.external = []) (hl : s.life = .unconstructed)
    (hc : s.construct = some c) : step s = .next ({ s with construct := none }.init c) := by
  simp [step, fetch, fetchUnconstructed, hw, hl, hc]

/-- ANSWER of a command transfer that succeeded. -/
theorem State.answer_command {s : State} {i : Instr} {j : Job} {h : Handle} {tx : Frame} {a : Answer}
    {rest : List Answer} (hc : s.cur = some i) (hj : jobOf i = some j) (hx : s.xferOut = some (h, tx))
    (ha : s.answers = a :: rest) (hn : 0 ≤ a.result) (hp : s.phase = .commandIssued) :
    s.answer = (s.completeOk (jobTarget j) h tx a rest).afterCommand j h (s.received a) := by
  simp [State.answer, State.answerWith, hc, hj, hx, ha, hp, show ¬ a.result < 0 by omega]

/-- ANSWER of a follow-up transfer that succeeded. -/
theorem State.answer_followUp {s : State} {i : Instr} {j : Job} {h : Handle} {tx : Frame} {a : Answer}
    {rest : List Answer} (hc : s.cur = some i) (hj : jobOf i = some j) (hx : s.xferOut = some (h, tx))
    (ha : s.answers = a :: rest) (hn : 0 ≤ a.result) (hp : s.phase = .resultPending) :
    s.answer = (s.completeOk (jobTarget j) h tx a rest).afterFollowUp j (s.received a) := by
  simp [State.answer, State.answerWith, hc, hj, hx, ha, hp, show ¬ a.result < 0 by omega]

/-- ANSWER of a transfer that failed (R187). -/
theorem State.answer_fail {s : State} {i : Instr} {j : Job} {h : Handle} {tx : Frame} {a : Answer}
    {rest : List Answer} (hc : s.cur = some i) (hj : jobOf i = some j) (hx : s.xferOut = some (h, tx))
    (ha : s.answers = a :: rest) (hn : a.result < 0) :
    s.answer = .next ((s.completeFail (jobTarget j) h tx a rest).raise .transportFailure (some a.result)) := by
  simp [State.answer, State.answerWith, hc, hj, hx, ha, hn]

/-! ### The result register (R31) -/

/-- A request that is accepted either starts its first transfer, with `res` as it was, or ends at once, with `Ok` or `Err`
in `res`. -/
theorem exec_res_written_at_request_end {s t : State} {i : Instr} (hr : s.ready = true) (hi : isRequest i = true)
    (h : exec i s = .next t) :
    (t.phase = .commandIssued ∧ t.cur = some i ∧ t.res = s.res) ∨
    (t.phase = .idle ∧ ((∃ p, t.res = .ok p) ∨ ∃ k, t.res = .err k none)) := by
  obtain ⟨_, hp⟩ := s.ready_iff.1 hr
  rcases exec_cases h with ⟨hf, _⟩ | ⟨_, _, _, rfl⟩ | ⟨_, _, k, _, rfl⟩ | ⟨_, _, hn, _⟩
  · simp [hi] at hf
  · rcases acceptedEffect_cases i s with ⟨j, _, _, he⟩ | ⟨d, m, f, _, he⟩ | ⟨_, p, he⟩ | ⟨_, he⟩ | ⟨hf, _⟩
    · simp [he]
    · simp [he]
    · simp [he, hp]
    · simp [he, hp]
    · simp [hi] at hf
  · simp [hp]
  · exact absurd hp hn

/-- While a request is in progress a step either goes on with it, with `res` as it was, or ends it, with `Ok` or the
transport's failure in `res`. -/
theorem step_res_written_at_request_end {s t : State} (hl : s.life = .live) (hp : s.phase ≠ .idle) (hs : step s = .next t) :
    (t.phase ≠ .idle ∧ t.res = s.res) ∨
    (t.phase = .idle ∧ t.cur = none ∧ ((∃ p, t.res = .ok p) ∨ ∃ c, t.res = .err .transportFailure (some c))) := by
  rcases step_cases hs with ⟨e, es, _, rfl⟩ | ⟨_, rfl | ⟨_, hu, _⟩ | ⟨_, _, _, hr, _⟩ | ⟨_, _, ha⟩ | ⟨_, _, hf⟩⟩
  · exact .inl (by simpa using hp)
  · exact .inl ⟨hp, rfl⟩
  · simp [hl] at hu
  · exact absurd (s.ready_iff.1 hr).2 hp
  · obtain ⟨_, _, _, _, _, ⟨_, rfl⟩ | ⟨a, rest, _, ⟨_, rfl⟩ | ⟨_, _, h⟩ | ⟨_, _, h⟩⟩⟩ := State.answer_cases ha
    · exact .inl ⟨hp, rfl⟩
    · exact .inr (by simp)
    · rcases State.afterCommand_cases h with ⟨rfl, _⟩ | ⟨p, rfl⟩ <;> simp
    · rcases State.afterFollowUp_cases h with ⟨_, _, rfl⟩ | ⟨_, rfl⟩ <;> simp
  · rcases State.finish_cases hf with ⟨p, rfl⟩ | ⟨_, _, _, _, _, rfl⟩ <;> simp

end Sys2Proof.Machine
end

