-- ==== Sys2Proof/Laws/Invariant.lean ====
section
/-! SUPPORT. The sequencer's invariant taken apart and put together, phase by phase, and that the operations on devices keep
the canonical form of both register spaces. -/

namespace Sys2Proof.Machine

theorem State.inv_iff (s : State) :
    s.inv = true ↔
      (s.life ≠ .unconstructed → s.sequencerFits = true) ∧ s.dev1.fits = true ∧ s.dev2.fits = true := by
  simp only [State.inv, Bool.and_eq_true, Bool.or_eq_true, beq_iff_eq]
  by_cases h : s.life = .unconstructed <;> simp [h, and_assoc]

/-! ### Taking it apart -/

theorem State.sequencerFits_len {s : State} (h : s.sequencerFits = true) : s.len = Config.frameLen s.topo := by
  simp only [State.sequencerFits, Bool.and_eq_true, beq_iff_eq] at h
  exact h.1

/-- Idle: nothing is in progress (R24, R25, R30). -/
theorem State.sequencerFits_idle {s : State} (h : s.sequencerFits = true) (hp : s.phase = .idle) :
    s.cur = none ∧ s.stage = none ∧ s.xferOut = none := by
  unfold State.sequencerFits at h
  cases hc : s.cur <;> simp_all

/-- Any other phase: a validated bus request is in progress, at the point its phase says (R24, R25, R30). -/
theorem State.sequencerFits_busy {s : State} (h : s.sequencerFits = true) (hp : s.phase ≠ .idle) :
    ∃ i j, s.cur = some i ∧ jobOf i = some j ∧ s.life = .live ∧ validate s.topo i = none ∧
      ((s.phase = .commandIssued ∧ stageFits j s.stage = true ∧
          s.xferOut = some (s.handleOf (jobTarget j), commandFrame s.topo s.stage s.rdval1 j)) ∨
        (s.phase = .resultPending ∧ readStageFits j s.stage = true ∧
          s.xferOut = some (s.handleOf (jobTarget j), diagFrame s.topo)) ∨
        (s.phase = .resultAvailable ∧ readStageFits j s.stage = true ∧ s.xferOut = none)) := by
  unfold State.sequencerFits at h
  cases hc : s.cur with
  | none => cases hp' : s.phase <;> simp_all
  | some i =>
    cases hj : jobOf i with
    | none => cases hp' : s.phase <;> simp_all
    | some j =>
      refine ⟨i, j, rfl, hj, ?_⟩
      cases hp' : s.phase <;> simp_all

/-! ### Putting it together -/

theorem State.sequencerFits_of_idle {t : State} (hn : t.len = Config.frameLen t.topo) (hp : t.phase = .idle)
    (hc : t.cur = none) (hs : t.stage = none) (hx : t.xferOut = none) : t.sequencerFits = true := by
  simp [State.sequencerFits, hn, hp, hc, hs, hx]

theorem State.sequencerFits_of_command {t : State} {i : Instr} {j : Job} (hn : t.len = Config.frameLen t.topo)
    (hp : t.phase = .commandIssued) (hc : t.cur = some i) (hj : jobOf i = some j) (hl : t.life = .live)
    (hv : validate t.topo i = none) (hs : stageFits j t.stage = true)
    (hx : t.xferOut = some (t.handleOf (jobTarget j), commandFrame t.topo t.stage t.rdval1 j)) :
    t.sequencerFits = true := by
  simp [State.sequencerFits, hn, hp, hc, hj, hl, hv, hs, hx]

theorem State.sequencerFits_of_pending {t : State} {i : Instr} {j : Job} (hn : t.len = Config.frameLen t.topo)
    (hp : t.phase = .resultPending) (hc : t.cur = some i) (hj : jobOf i = some j) (hl : t.life = .live)
    (hv : validate t.topo i = none) (hs : readStageFits j t.stage = true)
    (hx : t.xferOut = some (t.handleOf (jobTarget j), diagFrame t.topo)) : t.sequencerFits = true := by
  simp [State.sequencerFits, hn, hp, hc, hj, hl, hv, hs, hx]

theorem State.sequencerFits_of_available {t : State} {i : Instr} {j : Job} (hn : t.len = Config.frameLen t.topo)
    (hp : t.phase = .resultAvailable) (hc : t.cur = some i) (hj : jobOf i = some j) (hl : t.life = .live)
    (hv : validate t.topo i = none) (hs : readStageFits j t.stage = true) (hx : t.xferOut = none) :
    t.sequencerFits = true := by
  simp [State.sequencerFits, hn, hp, hc, hj, hl, hv, hs, hx]

/-- The handle of a request depends on the configuration alone (R22). -/
theorem State.handleOf_congr {s t : State} (h : t.topo = s.topo) (h0 : t.hdl0 = s.hdl0) (h1 : t.hdl1 = s.hdl1)
    (h2 : t.hdl2 = s.hdl2) (g : Target) : t.handleOf g = s.handleOf g := by
  cases g <;> simp [State.handleOf, State.handleFor, h, h0, h1, h2]

/-! ### Devices -/

theorem State.setDevice_fits {s : State} {d : Dev} {x : Device} (h1 : s.dev1.fits = true) (h2 : s.dev2.fits = true)
    (hx : x.fits = true) : (s.setDevice d x).dev1.fits = true ∧ (s.setDevice d x).dev2.fits = true := by
  cases d <;> simp [h1, h2, hx]

theorem State.device_fits {s : State} (d : Dev) (h1 : s.dev1.fits = true) (h2 : s.dev2.fits = true) :
    (s.device d).fits = true := by
  cases d <;> simpa [State.device]

theorem State.externalChange_fits {s : State} (e : ExternalEvent) (h1 : s.dev1.fits = true) (h2 : s.dev2.fits = true) :
    (s.externalChange e).dev1.fits = true ∧ (s.externalChange e).dev2.fits = true := by
  cases e with
  | word w => exact State.setDevice_fits h1 h2 (Device.receive_fits _ _ _ (State.device_fits _ h1 h2))
  | register d k v => exact State.setDevice_fits h1 h2 (Device.register_fits k v _ (State.device_fits _ h1 h2))
  | latch d l => exact State.setDevice_fits h1 h2 (State.device_fits d h1 h2)
  | reset d => exact State.setDevice_fits h1 h2 rfl

theorem State.deliver_fits {s : State} (t : Target) (tx : Frame) (h1 : s.dev1.fits = true) (h2 : s.dev2.fits = true) :
    (s.deliver t tx).dev1.fits = true ∧ (s.deliver t tx).dev2.fits = true := by
  simp only [State.deliver_fields]
  constructor <;> split <;>
    first
      | assumption
      | exact Device.receive_fits _ _ _ (State.device_fits _ h1 h2)

theorem State.forget_fits {s : State} (t : Target) (h1 : s.dev1.fits = true) (h2 : s.dev2.fits = true) :
    (s.forget t).dev1.fits = true ∧ (s.forget t).dev2.fits = true := by
  simp only [State.forget_fields]
  constructor <;> split <;>
    first
      | assumption
      | rfl

end Sys2Proof.Machine
end

