-- ==== Sys2Proof/Laws/PerInstr.lean ====
section
/-! SUPPORT. One statement per instruction of the opcode table: its first byte is a word of its own row. -/

namespace Sys2Proof.Laws.TableWord

open Sys2Proof

/-- The first byte of the instruction's encoding. -/
def first (i : Instr) : Byte := (encode i).getD 0 0

/-- The `mask` and `match` of the instruction's row of the opcode table (R71, R73, R81). -/
def row : Instr → Byte × Byte
  | .diag _ _ => (0xFF, 0x00)
  | .rd _ _ _ => (0xC0, 0x40)
  | .rst _ _ _ => (0xC0, 0x80)
  | .wr _ _ _ => (0xC0, 0xC0)
  | .read1 _ _ => (0x0F, 0x01)
  | .read2 _ _ => (0x0F, 0x02)
  | .write1 _ _ _ => (0x0F, 0x03)
  | .write2 _ _ _ _ => (0x0F, 0x04)
  | .reset1 _ _ => (0x0F, 0x05)
  | .reset2 _ _ => (0x0F, 0x06)
  | .relayOn _ _ => (0x0F, 0x07)
  | .relayOff _ _ => (0x0F, 0x08)
  | .relaysOn _ _ => (0x0F, 0x09)
  | .relaysOff _ _ => (0x0F, 0x0A)
  | .status _ => (0x0F, 0x0B)
  | .health _ _ => (0x0F, 0x0C)
  | .teardown => (0x0F, 0x0D)

/-- A request's first byte is its `op`. -/
theorem first_request (i : Instr) (r : RequestRecord) (h : encodeWord i = .request r) : first i = r.op.setWidth 8 := by
  simp [first, encode, h, PortWord.bytes]

/-- Under the row's mask the first byte is the row's match. -/
def Statement (i : Instr) : Prop := first i &&& (row i).1 = (row i).2

theorem diag (d : Dev) (data : Byte) : Statement (.diag d data) := by
  show commandByte .diag 0x00 &&& 0xFF = 0x00; decide
theorem rd (d : Dev) (a : Addr6) (data : Byte) : Statement (.rd d a data) := by
  show commandByte .rd (a.setWidth 8) &&& 0xC0 = 0x40; revert a; decide
theorem rst (d : Dev) (a : Addr6) (data : Byte) : Statement (.rst d a data) := by
  show commandByte .rst (a.setWidth 8) &&& 0xC0 = 0x80; revert a; decide
theorem wr (d : Dev) (a : Addr6) (v : Byte) : Statement (.wr d a v) := by
  show commandByte .wr (a.setWidth 8) &&& 0xC0 = 0xC0; revert a; decide
theorem read1 (dev a1 : Byte) : Statement (.read1 dev a1) := by rw [Statement, first_request _ _ rfl]; simp [emptyRecord, row]
theorem read2 (a1 a2 : Byte) : Statement (.read2 a1 a2) := by rw [Statement, first_request _ _ rfl]; simp [emptyRecord, row]
theorem write1 (dev a1 v1 : Byte) : Statement (.write1 dev a1 v1) := by rw [Statement, first_request _ _ rfl]; simp [emptyRecord, row]
theorem write2 (a1 v1 a2 v2 : Byte) : Statement (.write2 a1 v1 a2 v2) := by rw [Statement, first_request _ _ rfl]; simp [emptyRecord, row]
theorem reset1 (dev a1 : Byte) : Statement (.reset1 dev a1) := by rw [Statement, first_request _ _ rfl]; simp [emptyRecord, row]
theorem reset2 (a1 a2 : Byte) : Statement (.reset2 a1 a2) := by rw [Statement, first_request _ _ rfl]; simp [emptyRecord, row]
theorem relayOn (dev relay : Byte) : Statement (.relayOn dev relay) := by rw [Statement, first_request _ _ rfl]; simp [emptyRecord, row]
theorem relayOff (dev relay : Byte) : Statement (.relayOff dev relay) := by rw [Statement, first_request _ _ rfl]; simp [emptyRecord, row]
theorem relaysOn (dev : Byte) (sel : Selection) : Statement (.relaysOn dev sel) := by rw [Statement, first_request _ _ rfl]; simp [emptyRecord, row]
theorem relaysOff (dev : Byte) (sel : Selection) : Statement (.relaysOff dev sel) := by rw [Statement, first_request _ _ rfl]; simp [emptyRecord, row]
theorem status (dev : Byte) : Statement (.status dev) := by rw [Statement, first_request _ _ rfl]; simp [emptyRecord, row]
theorem health (dev relay : Byte) : Statement (.health dev relay) := by rw [Statement, first_request _ _ rfl]; simp [emptyRecord, row]
theorem teardown : Statement .teardown := by rw [Statement, first_request _ _ rfl]; simp [emptyRecord, row]

end Sys2Proof.Laws.TableWord
end

