-- ==== Sys2Proof/Laws/Run.lean ====
section
/-! SUPPORT. Steps chained into runs: one step of a run, the first step of a request, the answer of a transfer, and what
two states of one instance agree on. -/

namespace Sys2Proof.Machine

/-- A run takes its first step. -/
theorem run_step {s t : State} (k : Nat) (h : step s = .next t) :
    Host.Core.run Sys2Proof.core (k + 1) s = Host.Core.run Sys2Proof.core k t := by
  have h' : Sys2Proof.core.step s = .next t := h
  simp only [Host.Core.run, h']

/-- The step that accepts a validated request (R120). -/
theorem step_accept {s : State} {r : RequestRecord} {rs : List RequestRecord} {i : Instr} (hr : s.ready = true)
    (hw : s.external = []) (hq : s.requests = r :: rs) (hd : decodeRequest r = .ok i) (hv : validate s.topo i = none) :
    step s = .next (acceptedEffect i { s with requests := rs }) := by
  rw [step_request hr hw hq hd, exec_request i _ (decodeRequest_isRequest r i hd)]
  exact State.accept_valid _ i _ hr hv

/-- The step in which a command transfer is answered with `ok`. -/
theorem step_commandAnswered {s t : State} {i : Instr} {j : Job} {h : Handle} {tx : Frame} {a : Answer}
    {rest : List Answer} (hw : s.external = []) (hl : s.life = .live) (hc : s.cur = some i) (hj : jobOf i = some j)
    (hx : s.xferOut = some (h, tx)) (ha : s.answers = a :: rest) (hn : 0 ≤ a.result) (hp : s.phase = .commandIssued)
    (ht : (s.completeOk (jobTarget j) h tx a rest).afterCommand j h (s.received a) = .next t) : step s = .next t := by
  rw [step_answer hw hl (.inl hp), State.answer_command hc hj hx ha hn hp, ht]

/-- The step in which a follow-up transfer is answered with `ok`. -/
theorem step_followUpAnswered {s t : State} {i : Instr} {j : Job} {h : Handle} {tx : Frame} {a : Answer}
    {rest : List Answer} (hw : s.external = []) (hl : s.life = .live) (hc : s.cur = some i) (hj : jobOf i = some j)
    (hx : s.xferOut = some (h, tx)) (ha : s.answers = a :: rest) (hn : 0 ≤ a.result) (hp : s.phase = .resultPending)
    (ht : (s.completeOk (jobTarget j) h tx a rest).afterFollowUp j (s.received a) = .next t) : step s = .next t := by
  rw [step_answer hw hl (.inr hp), State.answer_followUp hc hj hx ha hn hp, ht]

/-- The step in which a transfer fails (R187). -/
theorem step_transferFailed {s : State} {i : Instr} {j : Job} {h : Handle} {tx : Frame} {a : Answer}
    {rest : List Answer} (hw : s.external = []) (hl : s.life = .live) (hc : s.cur = some i) (hj : jobOf i = some j)
    (hx : s.xferOut = some (h, tx)) (ha : s.answers = a :: rest) (hn : a.result < 0)
    (hp : s.phase = .commandIssued ∨ s.phase = .resultPending) :
    step s = .next ((s.completeFail (jobTarget j) h tx a rest).raise .transportFailure (some a.result)) := by
  rw [step_answer hw hl hp, State.answer_fail hc hj hx ha hn]

/-- The received frame depends on `len` only. -/
theorem State.received_congr {s t : State} (h : t.len = s.len) (a : Answer) : t.received a = s.received a := by
  simp [State.received, h]

theorem State.SameInstance.trans {s t u : State} (h : s.SameInstance t) (g : t.SameInstance u) : s.SameInstance u := by
  obtain ⟨a1, a2, a3, a4, a5, a6, a7, a8, a9, a10⟩ := h
  obtain ⟨b1, b2, b3, b4, b5, b6, b7, b8, b9, b10⟩ := g
  constructor <;> simp [*]

end Sys2Proof.Machine
end

