-- ==== Sys2Proof/Tests/Slice0.lean ====
section
/-! SUPPORT. Tests of one step each, on small states. Expected values are those of spec/95_test_vectors.md (E1 to E8, V1 to
V18, its tables) and of the encodings of spec/30_encoding.md. After them, for every obligation that has hypotheses, one
theorem that shows states and operands that meet all of them, at the ends of their ranges. -/

namespace Sys2Proof.Tests

open Sys2Proof Sys2Proof.Machine

/-! ### Helpers -/

/-- A field of the next state, if the step answers one. -/
def got {α : Type} (o : Step) (f : State → α) : Option α :=
  match o with
  | .next t => some (f t)
  | .fault _ => none
  | .refused _ => none

/-- Why a step refuses, if it does. -/
def refusalOf (o : Step) : Option Refusal :=
  match o with
  | .next _ => none
  | .fault _ => none
  | .refused r => some r

/-- A fresh Independent instance with handles H1 = 11 and H2 = 12. -/
def indep : State := { State.reset with topo := .independent, len := 2, hdl1 := 11, hdl2 := 12 }

/-- A fresh DaisyChained instance with handle H0 = 10. -/
def daisy : State := { State.reset with hdl0 := 10 }

/-- A transfer answered with `ok`. -/
def okAns (b0 b1 b2 b3 : Byte) : Answer := { result := 4, rx := ⟨b0, b1, b2, b3⟩ }

/-- A transfer answered with `fail(c)`. -/
def failAns (c : Int) : Answer := { result := c, rx := ⟨0, 0, 0, 0⟩ }

/-- `s` with the request `i` in progress and its transfer outstanding. -/
def busy (s : State) (i : Instr) (p : Phase) (st : Option Stage) (x : Handle × Frame) (as : List Answer) : State :=
  { s with cur := some i, phase := p, stage := st, xferOut := some x, answers := as }

/-- READ1 2, STA of vector E5, its command frame outstanding. -/
def readIssued (as : List Answer) : State := busy indep (.read1 2 6) .commandIssued none (12, [0x46, 0x00]) as

/-- READ1 2, STA of vector E5, its follow-up frame outstanding. -/
def readPending (as : List Answer) : State :=
  { busy indep (.read1 2 6) .resultPending none (12, [0x00, 0x00]) as with dev2 := ⟨.register 6, []⟩ }

/-- RELAY_ON 1, 3 of vector V13, with the CTL value 0x00 read. -/
def relayAvailable : State :=
  { indep with cur := some (.relayOn 1 3), phase := .resultAvailable, stage := some .readStage, rdval1 := 0x00 }

/-- An Unconstructed machine with a construction pending. -/
def before (c : Construction) : State := { State.reset with life := .unconstructed, construct := some c }

/-- A construction with the given topology and openChannel results. -/
def construction (t : Topology) (r1 r2 : OpenResult) : Construction :=
  { topology := t, ch1 := 1, ch2 := 2, chDC := 3, baud := 1000, spiMode := 1, ownsTransport := true,
    firstOpen := r1, secondOpen := r2 }

/-- `s` with the request `i` at its port. -/
def presenting (s : State) (i : Instr) : State :=
  match encodeWord i with
  | .request r => { s with requests := [r] }
  | .wire w => { s with external := [.word w] }

/-! ### WellFormed: an ill-formed term for each check -/

theorem test_wellFormed_refuses :
    WellFormed (.diag .d1 0x01) = false ∧ WellFormed (.rd .d1 0 0x00) = false ∧ WellFormed (.rd .d1 9 0x00) = false ∧
    WellFormed (.rd .d1 1 0x01) = false ∧ WellFormed (.rst .d2 0 0x00) = false ∧ WellFormed (.rst .d2 9 0x00) = false ∧
    WellFormed (.rst .d2 1 0x80) = false ∧ WellFormed (.wr .d1 0 0x55) = false ∧ WellFormed (.wr .d1 63 0x55) = false := by
  decide

theorem test_wellFormed_accepts :
    WellFormed (.diag .d1 0x00) = true ∧ WellFormed (.rd .d1 1 0x00) = true ∧ WellFormed (.rst .d2 8 0x00) = true ∧
    WellFormed (.wr .d2 8 0xFF) = true ∧ WellFormed (.read1 0 255) = true := by
  decide

/-! ### Decoding: words written out from the encodings of 30_encoding.md -/

/-- R70, R71, R73: the opcode in bits 7:6, the address in bits 5:0. -/
theorem test_decode_diag : (decode [0b00000000, 0x00, 0x00]).toOption = some (.diag .d1 0x00) := by decide
theorem test_decode_rd : (decode [0b01000111, 0x00, 0x00]).toOption = some (.rd .d1 7 0x00) := by decide
theorem test_decode_rst : (decode [0b10001000, 0x00, 0x01]).toOption = some (.rst .d2 8 0x00) := by decide
theorem test_decode_wr : (decode [0b11000011, 0x22, 0x01]).toOption = some (.wr .d2 3 0x22) := by decide

/-- R81: the operation codes, each with the fields it uses. -/
theorem test_decode_requests :
    [decode [0x1, 1, 7, 0, 0, 0, 0, 0, 0], decode [0x2, 0, 7, 1, 0, 0, 0, 0, 0], decode [0x3, 2, 7, 0, 0x5A, 0, 0, 0, 0],
      decode [0x4, 0, 7, 3, 0x11, 0x22, 0, 0, 0], decode [0x5, 2, 1, 0, 0, 0, 0, 0, 0],
      decode [0x6, 0, 1, 8, 0, 0, 0, 0, 0]].map Except.toOption =
    [some (.read1 1 7), some (.read2 7 1), some (.write1 2 7 0x5A), some (.write2 7 0x11 3 0x22), some (.reset1 2 1),
      some (.reset2 1 8)] := by decide

theorem test_decode_relayRequests :
    [decode [0x7, 1, 0, 0, 0, 0, 3, 0, 0], decode [0x8, 1, 0, 0, 0, 0, 8, 0, 0],
      decode [0x9, 1, 0, 0, 0, 0, 0, 2, 1, 3, 3], decode [0x9, 1, 0, 0, 0, 0, 0, 1, 1, 0, 0, 0, 0, 0, 0, 0],
      decode [0xA, 2, 0, 0, 0, 0, 0, 0, 0x0F]].map Except.toOption =
    [some (.relayOn 1 3), some (.relayOff 1 8), some (.relaysOn 1 (.list [1, 3, 3])),
      some (.relaysOn 1 (.bools [true, false, false, false, false, false, false, false])),
      some (.relaysOff 2 (.mask 0x0F))] := by decide

theorem test_decode_queries :
    [decode [0xB, 2, 0, 0, 0, 0, 0, 0, 0], decode [0xC, 1, 0, 0, 0, 0, 3, 0, 0],
      decode [0xD, 0, 0, 0, 0, 0, 0, 0, 0]].map Except.toOption =
    [some (.status 2), some (.health 1 3), some .teardown] := by decide

/-- R83: the reserved encodings spell nothing. -/
theorem test_decode_reserved :
    (decodeRequest (emptyRecord 0x0)).toOption = none ∧ (decodeRequest (emptyRecord 0xE)).toOption = none ∧
    (decodeRequest (emptyRecord 0xF)).toOption = none ∧
    (decodeRequest { emptyRecord 0x9 with sel := .reserved }).toOption = none ∧
    (decodeWire ⟨.d1, 0x3F, 0x00⟩).toOption = none := by decide

/-- The rows of opcode_table.json, by their match values, in the table's order. -/
theorem test_decodeTableWord_rows :
    [0x00, 0x40, 0x80, 0xC0, 0x01, 0x02, 0x03, 0x04, 0x05, 0x06, 0x07, 0x08, 0x09, 0x0A, 0x0B, 0x0C, 0x0D].map
      (decodeTableWord 8) =
    [some (.diag .d1 0), some (.rd .d1 0 0), some (.rst .d1 0 0), some (.wr .d1 0 0), some (.read1 0 0),
      some (.read2 0 0), some (.write1 0 0 0), some (.write2 0 0 0 0), some (.reset1 0 0), some (.reset2 0 0),
      some (.relayOn 0 0), some (.relayOff 0 0), some (.relaysOn 0 (.mask 0)), some (.relaysOff 0 (.mask 0)),
      some (.status 0), some (.health 0 0), some .teardown] := by decide

/-- A table word placed for the next fetch runs: `RD 7` latches CTL at device 1. -/
theorem test_withFetchWord_rd : got (step (State.reset.withFetchWord 8 0x47)) (·.dev1.latch) = some (.register 7) := by
  decide

/-- A request of zeros is refused by its checks (R183), so it ran: op, then `res`. -/
theorem test_withFetchWord_requests :
    [0x01, 0x02, 0x04, 0x07, 0x0B].map (fun w => got (step (State.reset.withFetchWord 8 w)) (·.res)) =
    [some (.err .invalidDevice none), some (.err .invalidAddress none), some (.err .invalidAddress none),
      some (.err .invalidDevice none), some (.err .invalidDevice none)] := by decide

theorem test_withFetchWord_teardown :
    got (step (State.reset.withFetchWord 8 0x0D)) (·.life) = some .tornDown := by decide

/-! ### The Frame Codec (section 2.1 of the vectors) -/

theorem test_encodeCommand :
    (encodeCommand .diag 8).toOption = some 0x08 ∧ (encodeCommand .rd 7).toOption = some 0x47 ∧
    (encodeCommand .rst 8).toOption = some 0x88 ∧ (encodeCommand .wr 8).toOption = some 0xC8 ∧
    (encodeCommand .wr 0).toOption = none ∧ (encodeCommand .rd 64).toOption = none := by decide

theorem test_decodeCommand :
    decodeCommand 0x00 = (.diag, 0) ∧ decodeCommand 0xC8 = (.wr, 8) ∧ decodeCommand 0xFF = (.wr, 63) := by decide

theorem test_frames :
    encodeSingleFrame .independent .wr .d2 3 0xFF = [0xC3, 0xFF] ∧
    encodeSingleFrame .daisyChained .rd .d1 7 0x99 = [0x00, 0x00, 0x47, 0x00] ∧
    encodeSingleFrame .daisyChained .wr .d2 1 0x80 = [0xC1, 0x80, 0x00, 0x00] ∧
    encodePairFrame .wr 8 0xAA 8 0x55 = [0xC8, 0x55, 0xC8, 0xAA] := by decide

theorem test_decodeFrames :
    decodeStatus .independent .d2 [0xAB, 0xCD] = 0xABCD ∧
    decodeStatus .daisyChained .d1 [0x11, 0x22, 0x33, 0x44] = 0x3344 ∧
    decodeStatus .daisyChained .d2 [0x11, 0x22, 0x33, 0x44] = 0x1122 ∧
    decodeRegisterValue .daisyChained .d1 [0x11, 0x22, 0x33, 0x44] = 0x44 ∧
    decodeRegisterValue .daisyChained .d2 [0x11, 0x22, 0x33, 0x44] = 0x22 := by decide

/-! ### Selections and relay bits (section 2.5) -/

theorem test_normalise :
    (normalise (.bools [true, true, false, false, false, false, true, false])).toOption = some 0xC2 ∧
    (normalise (.bools [true, false])).toOption = none ∧ (normalise (.list [1, 3, 3])).toOption = some 0x05 ∧
    (normalise (.list [2, 8])).toOption = some 0x82 ∧ (normalise (.list [])).toOption = some 0x00 ∧
    (normalise (.list [1, 9])).toOption = none ∧ (normalise (.list [0])).toOption = none := by decide

theorem test_relayApply :
    relayApply .setBits 0x10 0x05 = 0x15 ∧ relayApply .clearBits 0xFF 0x0F = 0xF0 ∧
    relayApply .clearBits 0x3C 0x00 = 0x3C := by decide

/-! ### The wire commands at a device (R36, R58, R227) -/

theorem test_diag : got (exec (.diag .d2 0x00) daisy) (·.dev2) = some ⟨.status, []⟩ := by decide
theorem test_rd : got (exec (.rd .d1 7 0x00) daisy) (·.dev1.latch) = some (.register 7) := by decide
theorem test_rd_address8 : got (exec (.rd .d1 8 0x00) daisy) (·.dev1.latch) = some .unknown := by decide
theorem test_rst : got (exec (.rst .d1 1 0x00) { daisy with dev1 := ⟨.status, [(7, 1)]⟩ }) (·.dev1) =
    some ⟨.unknown, []⟩ := by decide
theorem test_wr : got (exec (.wr .d1 3 0x22) { daisy with dev1 := ⟨.unknown, [(1, 1), (7, 9)]⟩ }) (·.dev1) =
    some ⟨.status, [(1, 1), (3, 0x22), (7, 9)]⟩ := by decide

/-! ### ACCEPT: the frame each request issues, and the result of a request that issues none -/

/-- V1. -/
theorem test_read1_issues : got (exec (.read1 1 7) indep) (fun t => (t.phase, t.xferOut)) =
    some (.commandIssued, some (11, [0x47, 0x00])) := by decide
/-- V4. -/
theorem test_read2_issues : got (exec (.read2 7 1) daisy) (·.xferOut) = some (some (10, [0x41, 0x00, 0x47, 0x00])) := by
  decide
/-- V7. -/
theorem test_write1_issues : got (exec (.write1 2 7 0x5A) daisy) (·.xferOut) =
    some (some (10, [0xC7, 0x5A, 0x00, 0x00])) := by decide
/-- V8. -/
theorem test_write2_issues : got (exec (.write2 7 0x11 3 0x22) daisy) (·.xferOut) =
    some (some (10, [0xC3, 0x22, 0xC7, 0x11])) := by decide
/-- V9. -/
theorem test_reset1_issues : got (exec (.reset1 2 1) indep) (·.xferOut) = some (some (12, [0x81, 0x00])) := by decide
/-- V10. -/
theorem test_reset2_issues : got (exec (.reset2 1 1) daisy) (·.xferOut) =
    some (some (10, [0x81, 0x00, 0x81, 0x00])) := by decide
/-- V13. -/
theorem test_relayOn_issues : got (exec (.relayOn 1 3) indep) (fun t => (t.stage, t.xferOut)) =
    some (some .readStage, some (11, [0x47, 0x00])) := by decide
/-- V14. -/
theorem test_relayOff_issues : got (exec (.relayOff 1 8) indep) (·.xferOut) = some (some (11, [0x47, 0x00])) := by decide
/-- V16. -/
theorem test_relaysOn_issues : got (exec (.relaysOn 1 (.list [])) indep) (·.xferOut) =
    some (some (11, [0x47, 0x00])) := by decide
/-- V15. -/
theorem test_relaysOff_issues : got (exec (.relaysOff 2 (.mask 0x0F)) daisy) (·.xferOut) =
    some (some (10, [0x47, 0x00, 0x00, 0x00])) := by decide
/-- P4, step 3. -/
theorem test_status : got (exec (.status 2) { daisy with stat2 := 0xAAAA }) (·.res) = some (.ok (.word 0xAAAA)) := by
  decide
/-- E7. -/
theorem test_health :
    [1, 2, 3, 4, 5, 8].map (fun r => got (exec (.health 1 r) { indep with stat1 := 0xE4E4 }) (·.res)) =
    [0b00, 0b01, 0b10, 0b11, 0b00, 0b11].map (fun c => some (Result.ok (.code c))) := by decide
/-- R212's example (`res`: R31, log 11), with the transport not owned. -/
theorem test_teardown : got (exec .teardown indep) (fun t => (t.life, t.res, t.calls)) =
    some (.tornDown, .ok .unit, [.closeChannel 11, .closeChannel 12]) := by decide
theorem test_teardown_owner : got (exec .teardown { daisy with ownsTransport := true }) (·.calls) =
    some [.closeChannel 10, .shutdown] := by decide

/-- Section 2.3: the order of the checks. -/
theorem test_checkOrder :
    [exec (.read2 0 9) indep, exec (.read1 0 0) indep, exec (.read2 9 0) daisy, exec (.relayOn 3 9) indep,
      exec (.relaysOff 1 (.bools [true, false])) indep, exec (.health 3 9) daisy, exec (.health 1 9) daisy].map
      (fun o => got o (·.res)) =
    [some (.err .modeViolation none), some (.err .invalidDevice none), some (.err .invalidAddress none),
      some (.err .invalidDevice none), some (.err .invalidRelay none), some (.err .invalidDevice none),
      some (.err .invalidRelay none)] := by decide

/-! ### ANSWER, FINISH and INIT -/

/-- E5, T1: the word goes to `stat[2]`, the follow-up frame is out. -/
theorem test_answer_command : got (step (readIssued [okAns 0xAA 0xBB 0 0])) (fun t => (t.stat2, t.phase, t.xferOut)) =
    some (0xAABB, .resultPending, some (12, [0x00, 0x00])) := by decide
/-- E5, T2: the value is byte 1 of the second transfer; `stat[2]` is not written again. -/
theorem test_answer_followUp : got (step (readPending [okAns 0xCC 0x3C 0 0])) (fun t => (t.rdval1, t.stat2, t.phase)) =
    some (0x3C, 0xFFFF, .resultAvailable) := by decide
/-- V4, T2: both values, and `stat` again. -/
theorem test_answer_pair :
    got (step (busy daisy (.read2 7 1) .resultPending none (10, [0, 0, 0, 0]) [okAns 0x11 0x22 0x33 0x44]))
      (fun t => (t.rdval1, t.rdval2, t.stat1, t.stat2)) = some (0x44, 0x22, 0x3344, 0x1122) := by decide
/-- V7: the other device's half is discarded. -/
theorem test_answer_write :
    got (step (busy daisy (.write1 2 7 0x5A) .commandIssued none (10, [0xC7, 0x5A, 0, 0]) [okAns 0xE4 0xE4 0 0]))
      (fun t => (t.stat1, t.stat2, t.res, t.phase)) = some (0xFFFF, 0xE4E4, .ok .unit, .idle) := by decide
/-- V18, T3: the write stage fails. -/
theorem test_answer_fail :
    got (step (busy { indep with stat1 := 0xE4E4 } (.relayOn 1 1) .commandIssued (some .writeStage) (11, [0xC7, 0x01])
      [failAns (-3)])) (fun t => (t.stat1, t.res, t.phase, t.stage)) =
    some (0xE4E4, .err .transportFailure (some (-3)), .idle, none) := by decide
/-- V13, T3: the write stage sends the new CTL value. -/
theorem test_finish_relay : got (step relayAvailable) (fun t => (t.stage, t.phase, t.xferOut)) =
    some (some .writeStage, .commandIssued, some (11, [0xC7, 0x04])) := by decide
/-- V13: the payload is the byte written. -/
theorem test_answer_relayWrite :
    got (step (busy indep (.relayOn 1 3) .commandIssued (some .writeStage) (11, [0xC7, 0x04]) [okAns 0xFF 0xFF 0 0]))
      (fun t => (t.res, t.stat1)) = some (.ok (.byte 0x04), 0xFFFF) := by decide
/-- R210, R37. -/
theorem test_init : got (step (before (construction .daisyChained (.handle 10) (.failure 0))))
    (fun t => (t.life, t.hdl0, t.len, t.stat1, t.calls)) =
    some (.live, 10, 4, 0xFFFF, [.openChannel 3 1000 1 (.handle 10)]) := by decide
/-- R188, R210: the second open fails, the first handle is closed. -/
theorem test_init_fails : got (step (before (construction .independent (.handle 11) (.failure (-7)))))
    (fun t => (t.life, t.res, t.calls.getLast?)) =
    some (.unconstructed, .err .initializationFailure (some (-7)), some (.closeChannel 11)) := by decide

/-! ### Events at a device -/

/-- R67, U12: a foreign word with a command byte that no row of the table has: the core goes on. -/
theorem test_undefinedWord_goesOn :
    got (step { readPending [] with external := [.word ⟨.d2, 0x3F, 0x00⟩] }) (fun t => (t.dev2, t.phase, t.external)) =
    some (⟨.unknown, []⟩, .resultPending, []) := by decide
/-- R67: a device changes a register by itself, here CTL of device 2, address 7. -/
theorem test_deviceChangesRegister :
    got (step { daisy with dev2 := ⟨.status, [(1, 1), (7, 0x0F)]⟩, external := [.register .d2 6 0xF0] }) (·.dev2) =
    some ⟨.status, [(1, 1), (7, 0xF0)]⟩ := by decide

/-! ### Refusals -/

/-- R83 (a). -/
theorem test_reserved_refused : refusalOf (step { daisy with requests := [emptyRecord 0xE] }) =
    some (.undefinedRequest .reservedOp) := by decide
/-- P4, step 5. -/
theorem test_tornDown_refused : refusalOf (exec (.status 1) { daisy with life := .tornDown }) = some .notLive := by decide
/-- R196: the record stays at a busy port. -/
theorem test_busy_holds : got (step { readIssued [] with requests := [emptyRecord 0xD] }) (fun t => (t.life, t.requests)) =
    some (.live, [emptyRecord 0xD]) := by decide

/-! ### Witnesses: the hypotheses of each obligation that has any can be met -/

theorem witness_commandByteRoundTrip : (1 ≤ 1 ∧ 1 ≤ 8) ∧ (1 ≤ 8 ∧ 8 ≤ 8) := by decide
theorem witness_encodeCommandFormulaAndGuard : (1 ≤ 8 ∧ 8 ≤ 8) ∧ ¬ (1 ≤ 0 ∧ 0 ≤ 8) ∧ ¬ (1 ≤ 9 ∧ 9 ≤ 8) := by decide
theorem witness_instructionBytesRoundTrip :
    WellFormed (.rd .d1 1 0x00) = true ∧ WellFormed (.wr .d2 8 0xFF) = true ∧
    WellFormed (.relaysOff 2 (.bools [true, false])) = true := by decide
theorem witness_deviceWordDecodesInjectively : decodeWire ⟨.d2, 0xFF, 0x12⟩ = .ok (.wr .d2 63 0x12) := rfl
theorem witness_reservedRequestsAreRefused :
    ({ daisy with requests := [emptyRecord 0x0] } : State).ready = true ∧ daisy.external = [] ∧
    ((emptyRecord 0x0).op = 0x0 ∧ (emptyRecord 0xE).op = 0xE ∧ (emptyRecord 0xF).op = 0xF) ∧
    ({ emptyRecord 0x9 with sel := .reserved } : RequestRecord).sel = .reserved := by decide
theorem witness_undefinedCommandByteLeavesDeviceUnknown :
    ({ daisy with external := [.word ⟨.d1, 0x01, 0x00⟩] } : State).external = [.word ⟨.d1, 0x01, 0x00⟩] ∧
    (0x01 : Byte) ≠ 0x00 ∧ (0x01 : Byte).toNat < 64 ∧ (0x3F : Byte) ≠ 0x00 ∧ (0x3F : Byte).toNat < 64 := by decide
theorem witness_receivedFrameDecoding : indep.len = 2 ∧ daisy.len = 4 := by decide
theorem witness_selectionNormalisation :
    (List.replicate 8 true).length = 8 ∧ (List.replicate 7 true).length ≠ 8 ∧ (List.replicate 9 true).length ≠ 8 ∧
    (∀ r ∈ ([1, 8] : List Byte), 1 ≤ r.toNat ∧ r.toNat ≤ 8) ∧
    (∃ r ∈ ([1, 0] : List Byte), ¬ (1 ≤ r.toNat ∧ r.toNat ≤ 8)) ∧
    (∃ r ∈ ([9] : List Byte), ¬ (1 ≤ r.toNat ∧ r.toNat ≤ 8)) := by decide
theorem witness_healthCodeBitsAndMeaning :
    (1 ≤ (1 : Byte).toNat ∧ (1 : Byte).toNat ≤ 8) ∧ (1 ≤ (8 : Byte).toNat ∧ (8 : Byte).toNat ≤ 8) := by decide
theorem witness_readCommandLatchesRegister :
    (1 ≤ (1 : Addr6).toNat ∧ (1 : Addr6).toNat ≤ 7) ∧ (1 ≤ (7 : Addr6).toNat ∧ (7 : Addr6).toNat ≤ 7) := by decide
theorem witness_writeCommandChangesAddressedRegister :
    (1 ≤ (1 : Addr6).toNat ∧ (1 : Addr6).toNat ≤ 7) ∧ (1 ≤ (7 : Addr6).toNat ∧ (7 : Addr6).toNat ≤ 7) := by decide
theorem witness_ungivenCommandLeavesDeviceUnknown :
    ¬ (1 ≤ (0 : Addr6).toNat ∧ (0 : Addr6).toNat ≤ 7) ∧ ¬ (1 ≤ (8 : Addr6).toNat ∧ (8 : Addr6).toNat ≤ 7) ∧
    (0x01 : Byte) ≠ 0x00 := by decide
theorem witness_singleDeviceRequestIsIssued :
    indep.ready = true ∧ daisy.ready = true ∧ ((1 : Byte) = 1 ∨ (1 : Byte) = 2) ∧ ((2 : Byte) = 1 ∨ (2 : Byte) = 2) ∧
    (1 ≤ (1 : Byte).toNat ∧ (1 : Byte).toNat ≤ 8) ∧ (1 ≤ (8 : Byte).toNat ∧ (8 : Byte).toNat ≤ 8) := by decide
theorem witness_pairRequestIsIssued :
    daisy.ready = true ∧ daisy.topo = .daisyChained ∧ (1 ≤ (1 : Byte).toNat ∧ (1 : Byte).toNat ≤ 8) ∧
    (1 ≤ (8 : Byte).toNat ∧ (8 : Byte).toNat ≤ 8) := by decide
theorem witness_relayRequestStartsReadStage :
    indep.ready = true ∧ ((2 : Byte) = 1 ∨ (2 : Byte) = 2) ∧ (1 ≤ (8 : Byte).toNat ∧ (8 : Byte).toNat ≤ 8) ∧
    (normalise (.list [1, 8])).toOption = some 0x81 := by decide
theorem witness_issueLoadsFrameRegister : indep.topo = .independent ∧ daisy.topo = .daisyChained := by decide
theorem witness_statusReturnsStoredWord : indep.ready = true := by decide
theorem witness_healthReturnsRelayCode :
    daisy.ready = true ∧ (1 ≤ (1 : Byte).toNat ∧ (1 : Byte).toNat ≤ 8) ∧ (1 ≤ (8 : Byte).toNat ∧ (8 : Byte).toNat ≤ 8) := by
  decide
theorem witness_teardownClosesHandles : indep.ready = true ∧ daisy.ready = true := by decide
theorem witness_pairRequestNeedsDaisyChain :
    (indep.ready = true ∧ indep.topo = .independent) ∧
    (daisy.topo = .daisyChained ∧ daisy.res ≠ .err .modeViolation none ∧ ∃ t, exec (.read2 1 8) daisy = .next t) ∧
    (isPairRequest (.read1 1 8) = false ∧ isPairRequest .teardown = false ∧ indep.res ≠ .err .modeViolation none ∧
      ∃ t, exec (.read1 1 8) indep = .next t) :=
  ⟨by decide, ⟨by decide, by decide, _, rfl⟩, by decide, by decide, by decide, _, rfl⟩
theorem witness_validationErrorChangesResultOnly :
    (indep.ready = true ∧ isRequest (.read2 1 9) = true ∧ validate indep.topo (.read2 1 9) = some .modeViolation) ∧
    (daisy.ready = true ∧ validate daisy.topo (.read2 1 9) = some .invalidAddress) ∧
    validate daisy.topo (.health 3 9) = some .invalidDevice ∧ validate daisy.topo (.health 2 9) = some .invalidRelay := by
  decide
theorem witness_invalidDeviceWritesResultOnly :
    indep.ready = true ∧ ((0 : Byte) ≠ 1 ∧ (0 : Byte) ≠ 2) ∧ ((3 : Byte) ≠ 1 ∧ (3 : Byte) ≠ 2) := by decide
theorem witness_invalidAddressWritesResultOnly :
    indep.ready = true ∧ ((1 : Byte) = 1 ∨ (1 : Byte) = 2) ∧ ¬ (1 ≤ (0 : Byte).toNat ∧ (0 : Byte).toNat ≤ 8) ∧
    ¬ (1 ≤ (9 : Byte).toNat ∧ (9 : Byte).toNat ≤ 8) ∧ daisy.ready = true ∧ daisy.topo = .daisyChained := by decide
theorem witness_invalidRelayWritesResultOnly :
    indep.ready = true ∧ ((2 : Byte) = 1 ∨ (2 : Byte) = 2) ∧ ¬ (1 ≤ (0 : Byte).toNat ∧ (0 : Byte).toNat ≤ 8) ∧
    ¬ (1 ≤ (9 : Byte).toNat ∧ (9 : Byte).toNat ≤ 8) ∧ (List.replicate 7 true).length ≠ 8 ∧
    (List.replicate 9 true).length ≠ 8 ∧ (∃ r ∈ ([1, 9] : List Byte), ¬ (1 ≤ r.toNat ∧ r.toNat ≤ 8)) := by decide
theorem witness_requestsOutsideLiveAreRefused :
    let s := presenting { daisy with life := .tornDown } (.status 1)
    let u := presenting { daisy with life := .unconstructed } (.status 1)
    (s.life ≠ .live ∧ u.life ≠ .live ∧ isRequest (.status 1) = true) ∧
    (s.external = [] ∧ s.requests ≠ [] ∧ s.life = .tornDown) ∧
    (u.external = [] ∧ u.requests ≠ [] ∧ u.life = .unconstructed ∧ u.construct = none) := by decide
theorem witness_busyPortHoldsRequests :
    (readIssued []).life = .live ∧ (readIssued []).phase ≠ .idle ∧ isRequest .teardown = true ∧
    (readPending []).phase ≠ .idle ∧ relayAvailable.phase ≠ .idle ∧ ∃ t, step relayAvailable = .next t :=
  ⟨by decide, by decide, by decide, by decide, by decide, _, rfl⟩
theorem witness_stepRunsDecodedRequest :
    let s := presenting indep (.read1 1 8)
    s.ready = true ∧ s.external = [] ∧ s.requests = [{ emptyRecord 0x1 with dev := 1, a1 := 8 }] ∧
    (decodeRequest { emptyRecord 0x1 with dev := 1, a1 := 8 }).toOption = some (.read1 1 8) := by decide
theorem witness_stepRunsDecodedDeviceWord :
    (presenting (readPending []) (.wr .d1 7 0x55)).external = [.word ⟨.d1, 0xC7, 0x55⟩] ∧
    (decodeWire ⟨.d1, 0xC7, 0x55⟩).toOption = some (.wr .d1 7 0x55) := by decide
theorem witness_deviceMayChangeByItself :
    ({ readPending [] with external := [.register .d2 7 0xFF] } : State).external = [.register .d2 7 0xFF] ∧
    ({ readPending [] with external := [.register .d1 0 0x00] } : State).external = [.register .d1 0 0x00] ∧
    ({ readPending [] with external := [.latch .d2 .status] } : State).external = [.latch .d2 .status] ∧
    ({ readPending [] with external := [.reset .d2] } : State).external = [.reset .d2] := by decide
theorem witness_unansweredTransferHolds :
    (readIssued []).inv = true ∧ (readIssued []).life = .live ∧ (readIssued []).external = [] ∧
    (readIssued []).phase = .commandIssued ∧ (readIssued []).answers = [] ∧
    (readPending []).inv = true ∧ (readPending []).phase = .resultPending := by decide
theorem witness_transportFailureAbortsRequest :
    let s := readPending [failAns (-1)]
    s.inv = true ∧ s.life = .live ∧ s.external = [] ∧ s.xferOut = some (12, [0x00, 0x00]) ∧ s.answers = [failAns (-1)] ∧
    (failAns (-1)).result < 0 := by decide

/-- The states of the transaction obligations: a ready core, a request it accepts, and as many answers as it needs. -/
def ready (s : State) (i : Instr) (as : List Answer) : State := { presenting s i with answers := as }

/-- The hypotheses of a transaction: ready, no foreign word, the request at the port decodes to `i`, the answers. -/
def starts (s : State) (i : Instr) (as : List Answer) : Bool :=
  (ready s i as).ready && (ready s i as).external == [] &&
    (match (ready s i as).requests with
      | r :: _ => (decodeRequest r).toOption == some i
      | [] => false) &&
    (ready s i as).answers == as

theorem witness_read1Transaction :
    starts indep (.read1 1 1) [okAns 1 2 3 4, okAns 5 6 7 8] = true ∧
    starts daisy (.read1 2 8) [okAns 1 2 3 4, okAns 5 6 7 8] = true ∧ 0 ≤ (okAns 1 2 3 4).result ∧
    1 ≤ (1 : Byte).toNat ∧ (8 : Byte).toNat ≤ 8 := by decide
theorem witness_read2Transaction :
    starts daisy (.read2 1 8) [okAns 1 2 3 4, okAns 5 6 7 8] = true ∧ daisy.topo = .daisyChained ∧
    0 ≤ (okAns 1 2 3 4).result := by decide
theorem witness_singleStepTransaction :
    starts indep (.write1 1 8 0xFF) [okAns 1 2 0 0] = true ∧ starts daisy (.reset1 2 1) [okAns 1 2 3 4] = true ∧
    0 ≤ (okAns 1 2 3 4).result := by decide
theorem witness_pairSingleStepTransaction :
    starts daisy (.write2 1 0x11 8 0x22) [okAns 1 2 3 4] = true ∧ starts daisy (.reset2 8 1) [okAns 1 2 3 4] = true ∧
    daisy.topo = .daisyChained := by decide
theorem witness_writeTransactionAtTheDevices :
    starts indep (.write1 1 1 0x00) [okAns 1 2 0 0] = true ∧ indep.topo = .independent ∧
    starts daisy (.write1 2 7 0x5A) [okAns 1 2 3 4] = true ∧ daisy.topo = .daisyChained ∧
    1 ≤ (1 : Byte).toNat ∧ (7 : Byte).toNat ≤ 7 := by decide
theorem witness_relayTransaction :
    let as := [okAns 1 2 3 4, okAns 5 6 7 8, okAns 9 10 11 12]
    starts indep (.relayOn 1 1) as = true ∧ starts indep (.relayOff 2 8) as = true ∧
    starts daisy (.relaysOn 1 (.bools (List.replicate 8 true))) as = true ∧
    starts daisy (.relaysOff 2 (.mask 0x0F)) as = true ∧ (normalise (.list [8])).toOption = some 0x80 ∧
    (normalise (.bools (List.replicate 8 true))).toOption = some 0xFF ∧ (normalise (.mask 0x0F)).toOption = some 0x0F := by
  decide
theorem witness_failedFollowUpKeepsFirstStatus :
    starts indep (.read1 1 2) [okAns 0xE4 0xE4 0 0, failAns (-5)] = true ∧ 0 ≤ (okAns 0xE4 0xE4 0 0).result ∧
    (failAns (-5)).result < 0 := by decide
theorem witness_failedRelayReadSendsNoWrite :
    starts indep (.relayOn 1 1) [failAns (-2), okAns 0 0 0 0] = true ∧
    starts indep (.relayOn 1 1) [okAns 0xE4 0xE4 0 0, failAns (-2)] = true ∧
    validate indep.topo (.relayOn 1 1) = none ∧ jobOf (.relayOn 1 1) = some (.relay .d1 0x01 .setBits) ∧
    (failAns (-2)).result < 0 := by decide
/-- E3: the second read returns the value the first request wrote. -/
theorem witness_relayOnTwiceWritesSameValue :
    let as := [okAns 0xFF 0xFF 0 0, okAns 0xFF 0x00 0 0, okAns 0xFF 0xFF 0 0, okAns 0xFF 0xFF 0 0, okAns 0xFF 0x02 0 0,
      okAns 0xFF 0xFF 0 0]
    let r := { emptyRecord 0x7 with dev := 1, relay := 2 }
    let s : State := { indep with requests := [r, r], answers := as }
    s.ready = true ∧ s.external = [] ∧ (decodeRequest r).toOption = some (.relayOn 1 2) ∧
    decodeRegisterValue s.topo .d1 (s.received (okAns 0xFF 0x02 0 0)) =
      decodeRegisterValue s.topo .d1 (s.received (okAns 0xFF 0x00 0 0)) ||| (1 : Byte) <<< ((2 : Byte).toNat - 1) := by
  decide
/-- E4, both rows: the relay off, and on, at the start. -/
theorem witness_relayOnThenOffRestoresClearedBit :
    let r := { emptyRecord 0x7 with dev := 1, relay := 2 }
    let r' := { emptyRecord 0x8 with dev := 1, relay := 2 }
    ({ indep with requests := [r, r'] } : State).ready = true ∧ indep.external = [] ∧
    (decodeRequest r).toOption = some (.relayOn 1 2) ∧ (decodeRequest r').toOption = some (.relayOff 1 2) ∧
    decodeRegisterValue indep.topo .d1 (indep.received (okAns 0xFF 0x83 0 0)) =
      decodeRegisterValue indep.topo .d1 (indep.received (okAns 0xFF 0x81 0 0)) ||| (1 : Byte) <<< ((2 : Byte).toNat - 1) ∧
    decodeRegisterValue indep.topo .d1 (indep.received (okAns 0xFF 0x83 0 0)) =
      decodeRegisterValue indep.topo .d1 (indep.received (okAns 0xFF 0x83 0 0)) ||| (1 : Byte) <<< ((2 : Byte).toNat - 1) := by
  decide
theorem witness_initEstablishesResetValues :
    let ci := construction .independent (.handle 11) (.handle 12)
    let cd := construction .daisyChained (.handle 10) (.failure 0)
    ((before ci).external = [] ∧ (before ci).life = .unconstructed ∧ (before ci).construct = some ci ∧
      ci.firstOpen = .handle 11 ∧ ci.topology = .independent ∧ ci.secondOpen = .handle 12) ∧
    ((before cd).construct = some cd ∧ cd.firstOpen = .handle 10 ∧ cd.topology = .daisyChained) := by decide
theorem witness_failedInitLeavesNoInstance :
    let c1 := construction .daisyChained (.failure (-1)) (.failure 0)
    let c2 := construction .independent (.handle 11) (.failure (-1))
    ((before c1).external = [] ∧ (before c1).life = .unconstructed ∧ (before c1).construct = some c1 ∧
      c1.firstOpen = .failure (-1)) ∧
    ((before c2).construct = some c2 ∧ c2.topology = .independent ∧ c2.firstOpen = .handle 11 ∧
      c2.secondOpen = .failure (-1)) := by decide
theorem witness_stepKeepsInvariant :
    (readIssued [okAns 1 2 0 0]).inv = true ∧ (readPending [okAns 1 2 0 0]).inv = true ∧ relayAvailable.inv = true ∧
    ∃ t, step (readIssued [okAns 1 2 0 0]) = .next t := ⟨by decide, by decide, by decide, _, rfl⟩
theorem witness_invariantExcludesFaults : relayAvailable.inv = true ∧ (readPending []).inv = true := by decide
theorem witness_transferOutstandingExactlyWhenPending :
    (readIssued []).inv = true ∧ (readIssued []).life = .live ∧ indep.inv = true ∧ indep.life = .live := by decide
theorem witness_stepKeepsFramesLegal :
    (readIssued [okAns 1 2 0 0]).inv = true ∧ (readIssued [okAns 1 2 0 0]).framesLegal = true ∧
    ∃ t, step (readIssued [okAns 1 2 0 0]) = .next t := ⟨by decide, by decide, _, rfl⟩
theorem witness_stepKeepsPipelineLatch :
    (readIssued [okAns 1 2 0 0]).inv = true ∧ (readIssued [okAns 1 2 0 0]).external = [] ∧
    (readIssued [okAns 1 2 0 0]).pipelineFits = true ∧ (readPending []).pipelineFits = true ∧
    (∃ t, step (readIssued [okAns 1 2 0 0]) = .next t) := ⟨by decide, by decide, by decide, by decide, _, rfl⟩
theorem witness_stepKeepsConfiguration :
    (readIssued []).life ≠ .unconstructed ∧ ∃ t, step (readIssued []) = .next t := ⟨by decide, _, rfl⟩
theorem witness_statusChangesOnlyOnAnsweredTransfer :
    let s := readIssued [okAns 0xAA 0xBB 0 0]
    s.life ≠ .unconstructed ∧ (∃ t, step s = .next t) ∧ got (step s) (fun t => decide (t.stat .d2 ≠ s.stat .d2)) = some true :=
  ⟨by decide, ⟨_, rfl⟩, by decide⟩
theorem witness_logGrowsByAnsweredTransfer :
    (readPending [failAns (-1)]).life ≠ .unconstructed ∧ ∃ t, step (readPending [failAns (-1)]) = .next t :=
  ⟨by decide, _, rfl⟩
theorem witness_transferIssuedOnlyAfterValidation :
    (∃ t, exec (.read1 1 8) indep = .next t ∧ t.xferOut ≠ indep.xferOut) ∧
    (readIssued [okAns 1 2 0 0]).inv = true ∧
    ∃ t, step (readIssued [okAns 1 2 0 0]) = .next t ∧ t.life ≠ .unconstructed ∧ t.xferOut ≠ none :=
  ⟨⟨_, rfl, by decide⟩, by decide, _, rfl, by decide, by decide⟩
theorem witness_tornDownIsFinal :
    let s := { presenting daisy (.wr .d1 7 0x55) with life := .tornDown }
    s.life = .tornDown ∧ ∃ t, step s = .next t := ⟨by decide, _, rfl⟩

end Sys2Proof.Tests
end

section
/-! SUPPORT. The wire commands at the devices that receive them (R36, R58), and what a delivered frame does to
each device. -/

namespace Sys2Proof.Machine

/-! ### The wire commands at a device (R36, R58) -/

theorem namedAddress_iff (a : Addr6) : namedAddress a = true ↔ 1 ≤ a.toNat ∧ a.toNat ≤ 7 := by
  simp [namedAddress]

theorem exec_diag (d : Dev) (data : Byte) (s : State) :
    exec (.diag d data) s = .next (s.setDevice d ((s.device d).onDiag data)) := rfl

theorem exec_rd (d : Dev) (a : Addr6) (data : Byte) (s : State) :
    exec (.rd d a data) s = .next (s.setDevice d ((s.device d).onRead a data)) := rfl

theorem exec_wr (d : Dev) (a : Addr6) (v : Byte) (s : State) :
    exec (.wr d a v) s = .next (s.setDevice d ((s.device d).onWrite a v)) := rfl

theorem Device.onDiag_zero (x : Device) : x.onDiag 0 = { latch := .status, regs := x.regs } := rfl

theorem Device.onRead_named {a : Addr6} (x : Device) (h : namedAddress a = true) :
    x.onRead a 0 = { latch := .register a, regs := x.regs } := by
  simp [Device.onRead, h]

theorem Device.onWrite_named {a : Addr6} (v : Byte) (x : Device) (h : namedAddress a = true) :
    x.onWrite a v = { latch := .status, regs := x.regs.write a.toNat v } := by
  simp [Device.onWrite, h]

/-- The filler word 0x00, 0x00 is DIAG (R73, R78). -/
theorem Device.receive_filler (x : Device) : x.receive 0x00 0x00 = { latch := .status, regs := x.regs } := rfl

theorem Device.receive_rd {a : Byte} (data : Byte) (x : Device) (h : a.toNat ≤ 8) :
    x.receive (commandByte .rd a) data = x.onRead (a.setWidth 6) data := by
  simp only [Device.receive, decodeCommand_address .rd a h]

theorem Device.receive_wr {a : Byte} (data : Byte) (x : Device) (h : a.toNat ≤ 8) :
    x.receive (commandByte .wr a) data = x.onWrite (a.setWidth 6) data := by
  simp only [Device.receive, decodeCommand_address .wr a h]

/-! ### A delivered frame (R75 to R77, R103, R104) -/

theorem State.device_congr {s t : State} (h1 : t.dev1 = s.dev1) (h2 : t.dev2 = s.dev2) (d : Dev) :
    t.device d = s.device d := by
  cases d
  · exact h1
  · exact h2

theorem State.device_deliver (s : State) (g : Target) (tx : Frame) (d : Dev) :
    (s.deliver g tx).device d = if State.reaches s.topo g d then s.deliveredTo tx d else s.device d := by
  cases d <;> rfl

theorem State.device_completeOk (s : State) (g : Target) (h : Handle) (tx : Frame) (a : Answer) (rest : List Answer)
    (d : Dev) : (s.completeOk g h tx a rest).device d = (s.deliver g tx).device d :=
  State.device_congr rfl rfl d

theorem State.device_followUp (s : State) (g : Target) (h : Handle) (rx : Frame) (d : Dev) :
    (s.followUp g h rx).device d = s.device d :=
  State.device_congr (by simp) (by simp) d

theorem State.device_completeCommand (s : State) (g : Target) (rx : Frame) (p : Payload) (d : Dev) :
    (s.completeCommand g rx p).device d = s.device d :=
  State.device_congr (by simp) (by simp) d

theorem State.reaches_addressed (topo : Topology) (d : Dev) : State.reaches topo (.one d) d = true := by
  cases topo <;> simp [State.reaches]

theorem State.reaches_daisyChained (g : Target) (d : Dev) : State.reaches .daisyChained g d = true := rfl

theorem State.not_reaches_other (d : Dev) : State.reaches .independent (.one d) (otherDev d) = false := by
  cases d <;> rfl

/-- In a single-device frame the addressed device's word is the command. -/
theorem State.deliveredTo_single (s : State) (op : Opcode) (d : Dev) (a v : Byte) :
    s.deliveredTo (encodeSingleFrame s.topo op d a v) d = (s.device d).receive (commandByte op a) (dataByte op v) := by
  unfold State.deliveredTo
  cases s.topo <;> cases d <;> rfl

/-- In a daisy-chain frame for one device the other device's word is the filler. -/
theorem State.deliveredTo_single_other (s : State) (op : Opcode) (d : Dev) (a v : Byte) (h : s.topo = .daisyChained) :
    s.deliveredTo (encodeSingleFrame s.topo op d a v) (otherDev d) =
      { latch := .status, regs := (s.device (otherDev d)).regs } := by
  unfold State.deliveredTo
  rw [h]
  cases d <;> exact Device.receive_filler _

end Sys2Proof.Machine
end

section
/-! SUPPORT. INIT (R37, R210): what it leaves when its opens succeed. -/

namespace Sys2Proof.Machine

@[simp] theorem State.constructed_fields (s : State) (c : Construction) (h0 h1 h2 : Handle) :
    (s.constructed c h0 h1 h2).topo = c.topology ∧ (s.constructed c h0 h1 h2).hdl0 = h0 ∧
    (s.constructed c h0 h1 h2).hdl1 = h1 ∧ (s.constructed c h0 h1 h2).hdl2 = h2 ∧
    (s.constructed c h0 h1 h2).life = .live ∧ (s.constructed c h0 h1 h2).phase = .idle ∧
    (s.constructed c h0 h1 h2).cur = none ∧ (s.constructed c h0 h1 h2).stage = none ∧
    (s.constructed c h0 h1 h2).stat1 = 0xFFFF ∧ (s.constructed c h0 h1 h2).stat2 = 0xFFFF ∧
    (s.constructed c h0 h1 h2).buf = ⟨0, 0, 0, 0⟩ ∧
    (s.constructed c h0 h1 h2).len = Config.frameLen c.topology ∧ (s.constructed c h0 h1 h2).rdval1 = 0 ∧
    (s.constructed c h0 h1 h2).rdval2 = 0 ∧ (s.constructed c h0 h1 h2).xferOut = none ∧
    (s.constructed c h0 h1 h2).res = .none ∧ (s.constructed c h0 h1 h2).log = [] ∧
    (s.constructed c h0 h1 h2).ownsTransport = c.ownsTransport ∧ (s.constructed c h0 h1 h2).dev1 = s.dev1 ∧
    (s.constructed c h0 h1 h2).dev2 = s.dev2 ∧ (s.constructed c h0 h1 h2).construct = s.construct ∧
    (s.constructed c h0 h1 h2).requests = s.requests ∧ (s.constructed c h0 h1 h2).answers = s.answers ∧
    (s.constructed c h0 h1 h2).external = s.external ∧ (s.constructed c h0 h1 h2).calls = s.calls := by
  exact ⟨rfl, rfl, rfl, rfl, rfl, rfl, rfl, rfl, rfl, rfl, rfl, rfl, rfl, rfl, rfl, rfl, rfl, rfl, rfl, rfl, rfl, rfl, rfl, rfl, rfl⟩

theorem State.constructed_rests (s : State) (c : Construction) (h0 h1 h2 : Handle) :
    (s.constructed c h0 h1 h2).Rests := ⟨rfl, rfl, rfl, rfl⟩

theorem State.init_independent (s : State) {c : Construction} {h1 h2 : Handle} (ht : c.topology = .independent)
    (ho1 : c.firstOpen = .handle h1) (ho2 : c.secondOpen = .handle h2) :
    s.init c = ((s.call (.openChannel c.ch1 c.baud c.spiMode (.handle h1))).call
      (.openChannel c.ch2 c.baud c.spiMode (.handle h2))).constructed c 0 h1 h2 := by
  simp [State.init, ht, ho1, ho2]

theorem State.init_daisyChained (s : State) {c : Construction} {h0 : Handle} (ht : c.topology = .daisyChained)
    (ho : c.firstOpen = .handle h0) :
    s.init c = (s.call (.openChannel c.chDC c.baud c.spiMode (.handle h0))).constructed c h0 0 0 := by
  simp [State.init, ht, ho]

end Sys2Proof.Machine
end

section
/-! SUPPORT. Every step as one of the machine's moves, with the guard each has: an invariant of the machine is
a case per move. -/

namespace Sys2Proof.Machine

/-- Everything one step can be, with the guard each move has (R67, R120, R210). In a request's moves the record has left
the port: the state is `{ s with requests := rs }`. -/
inductive Moves (s : State) : State → Prop
  /-- Nothing to do, or no answer yet. -/
  | hold : Moves s s
  /-- An event at a device (R67). -/
  | event {e : ExternalEvent} {es : List ExternalEvent} (hw : s.external = e :: es) :
      Moves s ({ s with external := es }.externalChange e)
  /-- INIT (R210). -/
  | init {c : Construction} (hl : s.life = .unconstructed) (hc : s.construct = some c) :
      Moves s ({ s with construct := none }.init c)
  /-- A request that ends within ACCEPT: a failed check or a query (R155, R185). -/
  | result {rs : List RequestRecord} {r : Result} (hr : s.ready = true) : Moves s ({ s with requests := rs }.setRes r)
  /-- TEARDOWN (R212). -/
  | teardown {rs : List RequestRecord} (hr : s.ready = true) : Moves s { s with requests := rs }.teardown
  /-- ACCEPT of a request that uses the bus in one stage (R120). -/
  | start {rs : List RequestRecord} {i : Instr} {j : Job} (hr : s.ready = true) (hv : validate s.topo i = none)
      (hj : jobOf i = some j) (hf : stageFits j none = true) :
      Moves s ({ s with requests := rs }.startRequest i (s.handleOf (jobTarget j)) (commandFrame s.topo none s.rdval1 j))
  /-- ACCEPT of a relay request (R165). -/
  | startRelay {rs : List RequestRecord} {i : Instr} {d : Dev} {m : Byte} {f : RelayFn} (hr : s.ready = true)
      (hv : validate s.topo i = none) (hj : jobOf i = some (.relay d m f)) :
      Moves s ({ s with requests := rs }.startRelay i d)
  /-- ANSWER of a transfer that failed (R187). -/
  | fail {h : Handle} {tx : Frame} {g : Target} {a : Answer} {rest : List Answer} (hl : s.life = .live)
      (hx : s.xferOut = some (h, tx)) (ha : s.answers = a :: rest) (hn : a.result < 0) :
      Moves s ((s.completeFail g h tx a rest).raise .transportFailure (some a.result))
  /-- ANSWER of a read's command transfer: the follow-up is issued (R120 a). -/
  | followUp {h : Handle} {tx : Frame} {j : Job} {a : Answer} {rest : List Answer} (hl : s.life = .live)
      (hx : s.xferOut = some (h, tx)) (ha : s.answers = a :: rest) (hn : 0 ≤ a.result) (hp : s.phase = .commandIssued)
      (hj : s.cur.bind jobOf = some j) (hf : stageFits j s.stage = true → readStageFits j s.stage = true) :
      Moves s ((s.completeOk (jobTarget j) h tx a rest).followUp (jobTarget j) h (s.received a))
  /-- ANSWER of a write's or a reset's command transfer: the request ends (R120 b). -/
  | complete {h : Handle} {tx : Frame} {g : Target} {a : Answer} {rest : List Answer} {p : Payload}
      (hl : s.life = .live) (hx : s.xferOut = some (h, tx)) (ha : s.answers = a :: rest) (hn : 0 ≤ a.result)
      (hp : s.phase = .commandIssued) :
      Moves s ((s.completeOk g h tx a rest).completeCommand g (s.received a) p)
  /-- ANSWER of a follow-up transfer for one device (R120 c). -/
  | latchOne {h : Handle} {tx : Frame} {g : Target} {d : Dev} {a : Answer} {rest : List Answer} (hl : s.life = .live)
      (hx : s.xferOut = some (h, tx)) (ha : s.answers = a :: rest) (hn : 0 ≤ a.result) (hp : s.phase = .resultPending) :
      Moves s ((s.completeOk g h tx a rest).latchOne d (s.received a))
  /-- ANSWER of the follow-up transfer of READ2 (R120 c, R125). -/
  | latchPair {h : Handle} {tx : Frame} {g : Target} {a : Answer} {rest : List Answer} (hl : s.life = .live)
      (hx : s.xferOut = some (h, tx)) (ha : s.answers = a :: rest) (hn : 0 ≤ a.result) (hp : s.phase = .resultPending) :
      Moves s ((s.completeOk g h tx a rest).latchPair (s.received a))
  /-- FINISH of a read (R120). -/
  | finish {p : Payload} (hl : s.life = .live) (hp : s.phase = .resultAvailable) : Moves s (s.finishOk p)
  /-- FINISH of a relay request's read stage (R165). -/
  | writeStage {d : Dev} {m : Byte} {f : RelayFn} (hl : s.life = .live) (hp : s.phase = .resultAvailable)
      (hj : s.cur.bind jobOf = some (.relay d m f)) : Moves s (s.writeStage d m f)

/-- ACCEPT at a ready port is a move. -/
theorem exec_moves {s t : State} {rs : List RequestRecord} {i : Instr} (hr : s.ready = true) (hi : isRequest i = true)
    (he : exec i { s with requests := rs } = .next t) : Moves s t := by
  obtain ⟨_, hp⟩ := s.ready_iff.1 hr
  rcases exec_cases he with ⟨hf, _⟩ | ⟨_, _, hv, rfl⟩ | ⟨_, _, k, _, rfl⟩ | ⟨_, _, hn, _⟩
  · simp [hi] at hf
  · have hh (g : Target) : { s with requests := rs }.handleOf g = s.handleOf g :=
      State.handleOf_congr rfl rfl rfl rfl g
    rcases acceptedEffect_cases i { s with requests := rs } with
      ⟨j, hj, hf, h⟩ | ⟨d, m, f, hj, h⟩ | ⟨_, p, h⟩ | ⟨_, h⟩ | ⟨hf, _⟩
    · rw [h, hh]
      exact .start hr hv hj ((hf none).2 rfl)
    · rw [h]
      exact .startRelay hr hv hj
    · rw [h]
      exact .result hr
    · rw [h]
      exact .teardown hr
    · simp [hi] at hf
  · exact .result hr
  · exact absurd hp hn

/-- ANSWER is a move. -/
theorem State.answer_moves {s t : State} (hl : s.life = .live) (h : s.answer = .next t) : Moves s t := by
  obtain ⟨h, tx, j, hx, hj, ⟨_, rfl⟩ | ⟨a, rest, ha, ⟨hn, rfl⟩ | ⟨hn, hp, h⟩ | ⟨hn, hp, h⟩⟩⟩ := State.answer_cases h
  · exact .hold
  · exact .fail hl hx ha hn
  · rcases State.afterCommand_cases h with ⟨rfl, hk⟩ | ⟨p, rfl⟩
    · refine .followUp hl hx ha hn hp hj fun hf => ?_
      rcases hk with ⟨d, b, rfl⟩ | ⟨b1, b2, rfl⟩ | ⟨d, m, f, rfl, hs⟩
      · exact hf
      · exact hf
      · simpa [readStageFits] using hs
    · exact .complete hl hx ha hn hp
  · rcases State.afterFollowUp_cases h with ⟨d, _, rfl⟩ | ⟨_, rfl⟩
    · exact .latchOne hl hx ha hn hp
    · exact .latchPair hl hx ha hn hp

/-- Every step is one of the moves. -/
theorem step_moves {s t : State} (hs : step s = .next t) : Moves s t := by
  rcases step_cases hs with
    ⟨e, es, hw, rfl⟩ | ⟨_, rfl | ⟨c, hl, hc, rfl⟩ | ⟨r, rs, i, hr, _, hd, he⟩ | ⟨hl, _, ha⟩ | ⟨hl, hp, hf⟩⟩
  · exact .event hw
  · exact .hold
  · exact .init hl hc
  · exact exec_moves hr (decodeRequest_isRequest r i hd) he
  · exact State.answer_moves hl ha
  · rcases State.finish_cases hf with ⟨p, rfl⟩ | ⟨d, m, f, hj, _, rfl⟩
    · exact .finish hl hp
    · exact .writeStage hl hp hj

/-! ### `stat` -/

theorem State.stat_congr {s t : State} (h1 : t.stat1 = s.stat1) (h2 : t.stat2 = s.stat2) (d : Dev) :
    t.stat d = s.stat d := by
  cases d
  · exact h1
  · exact h2

/-- A status update keeps a device's word or writes the whole word of the received frame (R27, R123). -/
theorem State.stat_updateStat (s : State) (g : Target) (rx : Frame) (d : Dev) :
    (s.updateStat g rx).stat d = s.stat d ∨ (s.updateStat g rx).stat d = decodeStatus s.topo d rx := by
  rcases g with (_ | _) | _ <;> cases d <;> simp [State.stat]

end Sys2Proof.Machine
end

section
/-! SUPPORT. The moves keep the invariant of the sequencer and of the register spaces. -/

namespace Sys2Proof.Machine

/-- Every move keeps the canonical form of both register spaces. -/
theorem Moves.keeps_fits {s t : State} (h : Moves s t) (h1 : s.dev1.fits = true) (h2 : s.dev2.fits = true) :
    t.dev1.fits = true ∧ t.dev2.fits = true := by
  cases h with
  | @event e es => exact State.externalChange_fits e h1 h2
  | @init c hl =>
    rcases State.init_cases { s with construct := none } c with ⟨_, _, _, _, h⟩ | ⟨_, _, h⟩
    · simp [h, h1, h2]
    · simp [h, h1, h2]
  | @fail _ _ g => exact State.forget_fits g h1 h2
  | followUp | complete =>
    simp only [State.followUp_fields, State.completeCommand_fields, State.completeOk_fields]
    exact State.deliver_fits _ _ h1 h2
  | latchOne | latchPair =>
    simp only [State.latchOne_fields, State.latchPair_fields, State.completeOk_fields]
    exact State.deliver_fits _ _ h1 h2
  | _ => exact ⟨h1, h2⟩

/-- A change at a device leaves the sequencer as it is. -/
theorem State.sequencerFits_externalChange (s : State) (e : ExternalEvent) :
    (s.externalChange e).sequencerFits = s.sequencerFits := by
  have hh (g : Target) : (s.externalChange e).handleOf g = s.handleOf g :=
    State.handleOf_congr (by simp) (by simp) (by simp) (by simp) g
  simp [State.sequencerFits, hh]

theorem State.constructed_sequencerFits (s : State) (c : Construction) (h0 h1 h2 : Handle) :
    (s.constructed c h0 h1 h2).sequencerFits = true :=
  State.sequencerFits_of_idle rfl rfl rfl rfl rfl

/-- What the invariant says while a command transfer is outstanding for the job `j`. -/
theorem State.sequencerFits_commandIssued {s : State} {j : Job} (h : s.sequencerFits = true)
    (hp : s.phase = .commandIssued) (hj : s.cur.bind jobOf = some j) :
    ∃ i, s.cur = some i ∧ jobOf i = some j ∧ validate s.topo i = none ∧ stageFits j s.stage = true ∧
      s.xferOut = some (s.handleOf (jobTarget j), commandFrame s.topo s.stage s.rdval1 j) := by
  obtain ⟨i, j', hc, hj', _, hv, h⟩ := State.sequencerFits_busy h (by simp [hp])
  obtain rfl : j' = j := by simpa [hc, hj'] using hj
  simp only [hp, true_and, reduceCtorEq, false_and, or_false] at h
  exact ⟨i, hc, hj', hv, h⟩

/-- What the invariant says while a read is pending or available. -/
theorem State.sequencerFits_read {s : State} (h : s.sequencerFits = true)
    (hp : s.phase = .resultPending ∨ s.phase = .resultAvailable) :
    ∃ i j, s.cur = some i ∧ jobOf i = some j ∧ validate s.topo i = none ∧ readStageFits j s.stage = true ∧
      (s.phase = .resultAvailable → s.xferOut = none) := by
  obtain ⟨i, j, hc, hj, _, hv, ⟨h, _⟩ | ⟨h, hf, _⟩ | ⟨h, hf, hx⟩⟩ :=
    State.sequencerFits_busy h (by rcases hp with hp | hp <;> simp [hp])
  · simp [h] at hp
  · exact ⟨i, j, hc, hj, hv, hf, by simp [h]⟩
  · exact ⟨i, j, hc, hj, hv, hf, fun _ => hx⟩

/-- INIT establishes the sequencer's invariant, or leaves `life` Unconstructed. -/
theorem State.init_sequencerFits {s : State} (c : Construction) (hl : s.life = .unconstructed)
    (h : (s.init c).life ≠ .unconstructed) : (s.init c).sequencerFits = true := by
  rcases State.init_cases s c with ⟨_, _, _, _, hi⟩ | ⟨_, _, hi⟩
  · rw [hi]
    exact State.constructed_sequencerFits _ _ _ _ _
  · simp [hi, hl] at h

/-- Once `life` is not Unconstructed, every move keeps the sequencer's invariant. -/
theorem Moves.keeps_sequencerFits {s t : State} (h : Moves s t) (hl : s.life ≠ .unconstructed)
    (hf : s.sequencerFits = true) : t.sequencerFits = true := by
  have hn := State.sequencerFits_len hf
  cases h with
  | hold => exact hf
  | @event e es =>
    rw [State.sequencerFits_externalChange]
    exact hf
  | init hu => exact absurd hu hl
  | result hr | teardown hr =>
    obtain ⟨_, hp⟩ := s.ready_iff.1 hr
    obtain ⟨hc, hs, hx⟩ := State.sequencerFits_idle hf hp
    exact State.sequencerFits_of_idle hn hp hc hs hx
  | @start rs i j hr hv hj hst =>
    obtain ⟨hlive, hp⟩ := s.ready_iff.1 hr
    obtain ⟨_, hs, _⟩ := State.sequencerFits_idle hf hp
    refine State.sequencerFits_of_command hn rfl rfl hj hlive hv ?_ ?_
    · simpa [hs] using hst
    · simp [hs, State.handleOf_congr (s := s) (t := State.startRequest _ _ _ _)]
  | startRelay hr hv hj =>
    obtain ⟨hlive, hp⟩ := s.ready_iff.1 hr
    exact State.sequencerFits_of_command hn rfl rfl hj hlive hv rfl rfl
  | fail | complete => exact State.sequencerFits_of_idle (by simpa using hn) (by simp) (by simp) (by simp) (by simp)
  | @followUp h tx j a rest hlive hx _ _ hp hj hst =>
    obtain ⟨i, hc, hij, hv, hst', hx'⟩ := State.sequencerFits_commandIssued hf hp hj
    obtain ⟨rfl, rfl⟩ : h = _ ∧ tx = _ := by simpa [hx] using hx'
    refine State.sequencerFits_of_pending (i := i) (j := j) (by simpa using hn) (by simp) (by simpa using hc) hij
      (by simpa using hlive) (by simpa using hv) (by simpa using hst hst') ?_
    simp [State.handleOf_congr (s := s) (t := State.followUp _ _ _ _)]
  | latchOne hlive _ _ _ hp | latchPair hlive _ _ _ hp =>
    obtain ⟨i, j, hc, hij, hv, hst, _⟩ := State.sequencerFits_read hf (.inl hp)
    exact State.sequencerFits_of_available (i := i) (j := j) (by simpa using hn) (by simp) (by simpa using hc) hij
      (by simpa using hlive) (by simpa using hv) (by simpa using hst) (by simp)
  | finish _ hp =>
    obtain ⟨_, _, _, _, _, _, hx⟩ := State.sequencerFits_read hf (.inr hp)
    exact State.sequencerFits_of_idle hn rfl rfl rfl (hx hp)
  | writeStage hlive hp hj =>
    obtain ⟨i, j, hc, hij, hv, hst, _⟩ := State.sequencerFits_read hf (.inr hp)
    obtain rfl : j = _ := by simpa [hc, hij] using hj
    exact State.sequencerFits_of_command hn rfl hc hij hlive hv rfl rfl

/-- Every move keeps the invariant. -/
theorem Moves.keeps_inv {s t : State} (h : Moves s t) (hi : s.inv = true) : t.inv = true := by
  obtain ⟨hf, h1, h2⟩ := s.inv_iff.1 hi
  refine t.inv_iff.2 ⟨fun ht => ?_, h.keeps_fits h1 h2⟩
  by_cases hl : s.life = .unconstructed
  · cases h with
    | hold => exact absurd hl ht
    | event => simp [hl] at ht
    | init hu => exact State.init_sequencerFits _ hu ht
    | result hr | teardown hr | start hr | startRelay hr => simp [State.ready, hl] at hr
    | fail hlive | followUp hlive | complete hlive | latchOne hlive | latchPair hlive | finish hlive
    | writeStage hlive => simp [hl] at hlive
  · exact h.keeps_sequencerFits hl (hf hl)

end Sys2Proof.Machine
end

section
/-! SUPPORT. The moves keep the pipeline invariant: a read's command frame latches what it asks for. -/

namespace Sys2Proof.Machine

/-- Outside Live nothing is asked of the pipeline. -/
theorem State.pipelineFits_of_life {t : State} (h : t.life ≠ .live) : t.pipelineFits = true := by
  unfold State.pipelineFits
  split
  · contradiction
  · rfl

/-- Outside ResultPending nothing is asked of the pipeline. -/
theorem State.pipelineFits_of_phase {t : State} (h : t.phase ≠ .resultPending) : t.pipelineFits = true := by
  unfold State.pipelineFits
  split
  · contradiction
  · rfl

theorem holdsResult_of_latch {s : State} {j : Job} {d : Dev}
    (h : ∀ a, readAddress j d = some a → (s.device d).latch = .register a) : holdsResult s j d = true := by
  unfold holdsResult
  cases ha : readAddress j d with
  | none => rfl
  | some a => simpa using h a ha

theorem State.pipelineFits_of_latch {t : State} {j : Job} (hj : t.cur.bind jobOf = some j)
    (h : ∀ d a, readAddress j d = some a → (t.device d).latch = .register a) : t.pipelineFits = true := by
  unfold State.pipelineFits
  split
  · rename_i j' _ _ hj'
    obtain rfl : j' = j := by simpa [hj'] using hj
    simp only [Bool.and_eq_true]
    exact ⟨holdsResult_of_latch (h .d1), holdsResult_of_latch (h .d2)⟩
  · rfl

/-- An RD word of a named register leaves that register latched. -/
theorem Device.receive_rd_latch {b : Byte} (x : Device) (h8 : b.toNat ≤ 8) (hn : namedAddress (b.setWidth 6) = true) :
    (x.receive (commandByte .rd b) 0).latch = .register (b.setWidth 6) := by
  rw [Device.receive_rd _ _ h8, Device.onRead_named _ hn]

theorem State.deliver_single_rd_latch (s : State) (d : Dev) {b : Byte} (h8 : b.toNat ≤ 8)
    (hn : namedAddress (b.setWidth 6) = true) :
    ((s.deliver (.one d) (encodeSingleFrame s.topo .rd d b 0x00)).device d).latch = .register (b.setWidth 6) := by
  rw [State.device_deliver, if_pos (State.reaches_addressed _ _), State.deliveredTo_single]
  exact Device.receive_rd_latch _ h8 hn

theorem State.deliver_pair_rd_latch {s : State} (ht : s.topo = .daisyChained) (d : Dev) {b1 b2 : Byte}
    (h1 : b1.toNat ≤ 8) (h2 : b2.toNat ≤ 8) {a : Addr6} (ha : readAddress (.readPair b1 b2) d = some a) :
    ((s.deliver .both (encodePairFrame .rd b1 0x00 b2 0x00)).device d).latch = .register a := by
  rw [State.device_deliver, ht, if_pos (State.reaches_daisyChained _ _), State.deliveredTo, ht]
  cases d <;> simp only [readAddress, Option.ite_none_right_eq_some, Option.some.injEq] at ha <;> obtain ⟨hn, rfl⟩ := ha
  · exact Device.receive_rd_latch _ h1 hn
  · exact Device.receive_rd_latch _ h2 hn

theorem address_le_of_readOne {topo : Topology} {i : Instr} {d : Dev} {b : Byte} (hj : jobOf i = some (.readOne d b))
    (hv : validate topo i = none) : b.toNat ≤ 8 := by
  cases i <;> simp only [jobOf, Option.some.injEq, reduceCtorEq, Job.readOne.injEq] at hj
  obtain ⟨_, rfl⟩ := hj
  simp only [validate, firstError_eq_none, List.mem_cons, forall_eq_or_imp, checkAddress_eq_none, validAddress_iff] at hv
  exact hv.2.1.2

theorem daisyChained_of_readPair {topo : Topology} {i : Instr} {b1 b2 : Byte} (hj : jobOf i = some (.readPair b1 b2))
    (hv : validate topo i = none) : topo = .daisyChained ∧ b1.toNat ≤ 8 ∧ b2.toNat ≤ 8 := by
  cases i <;> simp only [jobOf, Option.some.injEq, reduceCtorEq, Job.readPair.injEq] at hj
  obtain ⟨rfl, rfl⟩ := hj
  simp only [validate, firstError_eq_none, List.mem_cons, forall_eq_or_imp, checkTopology_eq_none, checkAddress_eq_none,
    validAddress_iff] at hv
  exact ⟨hv.1, hv.2.1.2, hv.2.2.1.2⟩

/-- The command frame of a validated read, once delivered, leaves the requested register latched in each device it
addresses (R24, R36). -/
theorem State.deliver_read_latch {s : State} {i : Instr} {j : Job} {d : Dev} {a : Addr6} (hj : jobOf i = some j)
    (hv : validate s.topo i = none) (hf : readStageFits j s.stage = true) (ha : readAddress j d = some a) :
    ((s.deliver (jobTarget j) (commandFrame s.topo s.stage s.rdval1 j)).device d).latch = .register a := by
  cases j with
  | readOne d' b =>
    simp only [readAddress, Option.ite_none_right_eq_some, Option.some.injEq] at ha
    obtain ⟨⟨rfl, hn⟩, rfl⟩ := ha
    exact State.deliver_single_rd_latch s d' (address_le_of_readOne hj hv) hn
  | readPair b1 b2 =>
    obtain ⟨ht, h1, h2⟩ := daisyChained_of_readPair hj hv
    exact State.deliver_pair_rd_latch ht d h1 h2 ha
  | relay d' m f =>
    simp only [readAddress, Option.ite_none_right_eq_some, Option.some.injEq] at ha
    obtain ⟨rfl, rfl⟩ := ha
    have hs : s.stage = some .readStage := by simpa [readStageFits] using hf
    rw [hs]
    exact State.deliver_single_rd_latch s d' (by decide) (by decide)
  | writeOne | writePair | resetOne | resetPair => cases ha

/-- No move presents an event at a device. -/
theorem Moves.keeps_external_nil {s t : State} (h : Moves s t) (hw : s.external = []) : t.external = [] := by
  cases h with
  | event he => simp [hw] at he
  | @init c =>
    rcases State.init_cases { s with construct := none } c with ⟨_, _, _, _, h⟩ | ⟨_, _, h⟩
    · simpa [h] using hw
    · simpa [h] using hw
  | _ => simpa using hw

theorem Moves.keeps_pipelineFits {s t : State} (h : Moves s t) (hi : s.inv = true) (hw : s.external = [])
    (hf : s.pipelineFits = true) : t.pipelineFits = true := by
  cases h with
  | hold => exact hf
  | event he => simp [hw] at he
  | @init c hl =>
    rcases State.init_cases { s with construct := none } c with ⟨_, _, _, _, h⟩ | ⟨_, _, h⟩ <;> rw [h]
    · exact State.pipelineFits_of_phase (by simp)
    · exact State.pipelineFits_of_life (by simp [hl])
  | result hr | teardown hr =>
    obtain ⟨_, hp⟩ := s.ready_iff.1 hr
    exact State.pipelineFits_of_phase (by simp [hp])
  | finish | start | startRelay | fail | complete | latchOne | latchPair | writeStage =>
    exact State.pipelineFits_of_phase (by simp)
  | @followUp h tx j a rest hlive hx _ _ hp hj hst =>
    have hs := (s.inv_iff.1 hi).1 (by simp [hlive])
    obtain ⟨i, hc, hij, hv, hst', hx'⟩ := State.sequencerFits_commandIssued hs hp hj
    obtain ⟨rfl, rfl⟩ : h = _ ∧ tx = _ := by simpa [hx] using hx'
    refine State.pipelineFits_of_latch (by simpa using hj) fun d b hb => ?_
    rw [State.device_followUp, State.device_completeOk]
    exact State.deliver_read_latch hij hv (hst hst') hb

end Sys2Proof.Machine
end

section
/-! SUPPORT. An answered WRITE1 at the devices. -/

namespace Sys2Proof.Machine

theorem State.deliver_single_wr {s : State} {d : Dev} {a : Byte} (v : Byte) (h1 : 1 ≤ a.toNat) (h7 : a.toNat ≤ 7) :
    (s.deliver (.one d) (encodeSingleFrame s.topo .wr d a v)).device d =
      { latch := .status, regs := (s.device d).regs.write a.toNat v } := by
  have ha : (a.setWidth 6).toNat = a.toNat := by
    rw [BitVec.toNat_setWidth]
    exact Nat.mod_eq_of_lt (by omega)
  have hn : namedAddress (a.setWidth 6) = true := (namedAddress_iff _).2 (by omega)
  rw [State.device_deliver, if_pos (State.reaches_addressed _ _), State.deliveredTo_single,
    Device.receive_wr _ _ (by omega), Device.onWrite_named _ _ hn, ha]
  rfl

/-- The two steps of an answered WRITE1 deliver its frame and change nothing else at the devices (R126). -/
theorem run_write1_devices {s : State} {r : RequestRecord} {rs : List RequestRecord} {dev a v : Byte} {x : Answer}
    {rest : List Answer} (hr : s.ready = true) (hw : s.external = []) (hq : s.requests = r :: rs)
    (hd : decodeRequest r = .ok (.write1 dev a v)) (hv : validate s.topo (.write1 dev a v) = none)
    (ha : s.answers = x :: rest) (hn : 0 ≤ x.result) :
    ∃ t, Host.Core.run Sys2Proof.core 2 s = .next t ∧
      ∀ d, t.device d =
        (s.deliver (.one (devOf dev)) (encodeSingleFrame s.topo .wr (devOf dev) a v)).device d := by
  have h2 := step_commandAnswered (s := acceptedEffect (.write1 dev a v) { s with requests := rs }) hw
    (s.ready_iff.1 hr).1 rfl rfl rfl ha hn rfl rfl
  refine ⟨_, by rw [run_step 1 (step_accept hr hw hq hd hv), run_step 0 h2]; rfl, fun d => ?_⟩
  rw [State.device_completeCommand, State.device_completeOk]
  cases d <;> rfl

end Sys2Proof.Machine
end

section
/-! The statements about the state of the core and of the devices (10_state.md), settled. -/

open Sys2Proof Sys2Proof.Machine

/-- Settles O14: DIAG with the filler data byte is `Device.onDiag_zero`. -/
theorem diagLatchesStatusWord : Obligations.DiagLatchesStatusWord := by
  intro s d
  rw [exec_diag, Device.onDiag_zero]

/-- Settles O15: an address in 1..7 is a named one. -/
theorem readCommandLatchesRegister : Obligations.ReadCommandLatchesRegister := by
  intro s d a h1 h7
  rw [exec_rd, Device.onRead_named _ ((namedAddress_iff a).2 ⟨h1, h7⟩)]

/-- Settles O16, from read-after-write of the register space. -/
theorem writeCommandChangesAddressedRegister : Obligations.WriteCommandChangesAddressedRegister := by
  intro s d a v h1 h7
  refine ⟨_, exec_wr d a v s, ?_⟩
  rw [Device.onWrite_named _ _ ((namedAddress_iff a).2 ⟨h1, h7⟩)]
  exact ⟨rfl, Memory.read_write_same _ _ _, fun b hb => Memory.read_write_other _ _ _ _ hb⟩

/-- Settles O22: the two frame lengths by computation, the handle by topology. -/
theorem issueLoadsFrameRegister : Obligations.IssueLoadsFrameRegister := by
  intro s h b0 b1 b2 b3
  refine ⟨rfl, rfl, fun ht => ?_, fun ht => ?_⟩ <;> simp [State.handleFor, ht]

/-- Settles O25, by topology and by ownership of the transport. -/
theorem teardownClosesHandles : Obligations.TeardownClosesHandles := by
  intro s hr
  rw [exec_request .teardown s rfl, State.accept_valid s _ _ hr rfl]
  simp only [acceptedEffect, State.teardown, State.handles]
  cases s.topo <;> cases s.ownsTransport <;> simp

/-- Settles O50: every part is a value of the one state `State.reset`. -/
theorem resetValuesAndInvariant : Obligations.ResetValuesAndInvariant := by
  exact ⟨rfl, ⟨rfl, rfl, rfl, rfl⟩, rfl, rfl, rfl, rfl, rfl, rfl, rfl⟩

/-- Settles O60: after TEARDOWN the machine can only hold or meet an event at a device; every other step needs another `life`. -/
theorem tornDownIsFinal : Obligations.TornDownIsFinal := by
  intro s t ht hs
  rcases step_cases hs with ⟨e, es, _, rfl⟩ | ⟨_, rfl | ⟨_, hu, _⟩ | ⟨_, _, _, hr, _⟩ | ⟨hl, _⟩ | ⟨hl, _⟩⟩
  · simpa using ht
  · exact ⟨ht, rfl, rfl⟩
  · simp [ht] at hu
  · simp [State.ready, ht] at hr
  · simp [ht] at hl
  · simp [ht] at hl

/-- Settles O53: Idle holds no transfer, and each busy phase says which one is outstanding. -/
theorem transferOutstandingExactlyWhenPending : Obligations.TransferOutstandingExactlyWhenPending := by
  intro s hi hl
  have hf : s.sequencerFits = true := (s.inv_iff.1 hi).1 (by simp [hl])
  by_cases hp : s.phase = .idle
  · obtain ⟨_, _, hx⟩ := State.sequencerFits_idle hf hp
    simp [hp, hx]
  · obtain ⟨_, _, _, _, _, _, ⟨hp, _, hx⟩ | ⟨hp, _, hx⟩ | ⟨hp, _, hx⟩⟩ := State.sequencerFits_busy hf hp <;>
      simp [hp, hx]

/-- Settles O56, by the moves: INIT alone writes the configuration, TEARDOWN alone writes `life`. -/
theorem stepKeepsConfiguration : Obligations.StepKeepsConfiguration := by
  intro s t hl hs
  cases step_moves hs with
  | init hu => exact absurd hu hl
  | teardown => simp
  | _ => simpa using hl

/-- Settles O57: only the moves that end in `State.updateStat` write `stat`. -/
theorem statusChangesOnlyOnAnsweredTransfer : Obligations.StatusChangesOnlyOnAnsweredTransfer := by
  intro s t d hl hs hd
  cases step_moves hs with
  | init hu => exact absurd hu hl
  | followUp _ hx ha hn hp | complete _ hx ha hn hp =>
    refine ⟨_, _, _, hx, ha, hn, .inl hp, ?_⟩
    exact (State.stat_updateStat (s.completeOk _ _ _ _ _) _ _ _).resolve_left hd
  | latchPair _ hx ha hn hp =>
    refine ⟨_, _, _, hx, ha, hn, .inr hp, ?_⟩
    exact (State.stat_updateStat (s.completeOk _ _ _ _ _) .both _ _).resolve_left hd
  | _ => exact absurd (State.stat_congr (by simp) (by simp) d) hd

/-- Settles O58: the five ANSWER moves append one entry, every other move leaves the log. -/
theorem logGrowsByAnsweredTransfer : Obligations.LogGrowsByAnsweredTransfer := by
  intro s t hl hs
  cases step_moves hs with
  | init hu => exact absurd hu hl
  | fail _ hx ha hn => exact .inr ⟨_, _, _, _, hx, ha, by simp [hn]⟩
  | followUp _ hx ha hn hp => exact .inr ⟨_, _, _, _, hx, ha, by simp [hn, hp, not_lt.2 hn]⟩
  | complete _ hx ha hn | latchOne _ hx ha hn | latchPair _ hx ha hn =>
    exact .inr ⟨_, _, _, _, hx, ha, by simp [not_lt.2 hn]⟩
  | _ => exact .inl (by simp)

/-- Settles O48, by topology. -/
theorem initEstablishesResetValues : Obligations.InitEstablishesResetValues := by
  intro s c h1 h2 hw hl hc ho1 ho2
  refine ⟨_, step_init hw hl hc, ?_⟩
  cases ht : c.topology with
  | independent =>
    rw [State.init_independent _ ht ho1 (ho2 ht)]
    simp [State.constructed_rests, ht, Config.frameLen]
  | daisyChained =>
    rw [State.init_daisyChained _ ht ho1]
    simp [State.constructed_rests, ht, Config.frameLen]

/-- Settles O42: the run is one delivered frame, and each device's word of it is the WR or the filler. -/
theorem writeTransactionAtTheDevices : Obligations.WriteTransactionAtTheDevices := by
  intro s r rs dev a v x rest hr hw hq hd hdev h1 h7 ha hn d
  have hv : validate s.topo (.write1 dev a v) = none := by
    simp [validate, (checkDevice_eq_none dev).2 hdev, (checkAddress_eq_none a).2 ((validAddress_iff _).2 ⟨h1, by omega⟩)]
  obtain ⟨t, ht, hdevs⟩ := run_write1_devices hr hw hq hd hv ha hn
  have hself : t.device d = { latch := .status, regs := (s.device d).regs.write a.toNat v } :=
    (hdevs d).trans (State.deliver_single_wr v h1 h7)
  refine ⟨t, ht, ?_, ?_, ?_, fun hi => ?_, fun hc => ?_⟩
  · rw [hself]
  · rw [hself]
    exact Memory.read_write_same _ _ _
  · intro b hb
    rw [hself]
    exact Memory.read_write_other _ _ _ _ hb
  · rw [hdevs, State.device_deliver, hi]
    exact if_neg (Bool.eq_false_iff.1 (State.not_reaches_other d))
  · rw [hdevs, State.device_deliver, hc, if_pos (State.reaches_daisyChained _ _), ← hc]
    exact State.deliveredTo_single_other s .wr d a v hc

/-- Settles O51: each move keeps the sequencer's registers together and both register spaces canonical. -/
theorem stepKeepsInvariant : Obligations.StepKeepsInvariant := by
  intro s t hi hs
  exact (step_moves hs).keeps_inv hi

/-- Settles O55: only the follow-up move enters ResultPending, and the read frame it answers has latched the register. -/
theorem stepKeepsPipelineLatch : Obligations.StepKeepsPipelineLatch := by
  intro s t hi hw hf hs
  exact ⟨(step_moves hs).keeps_external_nil hw, (step_moves hs).keeps_pipelineFits hi hw hf⟩
end

section
/-! SUPPORT. The frames of the outstanding transfer and of the log (R55, R72, R83 b, R121): the sequencer's invariant says
which frame is outstanding, and an answer moves that frame into the log. -/

namespace Sys2Proof.Machine

theorem State.framesLegal_iff (s : State) :
    s.framesLegal = true ↔ (s.life ≠ .unconstructed →
      (∀ e ∈ s.log, emittedEntry s.topo e = true) ∧ ∀ x, s.xferOut = some x → emittedFrame s.topo x.2 = true) := by
  by_cases hl : s.life = .unconstructed <;> cases hx : s.xferOut <;> simp [State.framesLegal, hl, hx]

/-- The outstanding frame is the command frame of a validated request or the follow-up DIAG frame, so it is legal. -/
theorem State.emittedFrame_of_sequencerFits {s : State} (h : s.sequencerFits = true) {x : Handle × Frame}
    (hx : s.xferOut = some x) : emittedFrame s.topo x.2 = true := by
  by_cases hp : s.phase = .idle
  · obtain ⟨_, _, hn⟩ := State.sequencerFits_idle h hp
    simp [hn] at hx
  · obtain ⟨i, j, _, hj, _, hv, ⟨_, _, hx'⟩ | ⟨_, _, hx'⟩ | ⟨_, _, hx'⟩⟩ := State.sequencerFits_busy h hp
    · obtain rfl := Option.some.inj (hx.symm.trans hx')
      exact emittedFrame_command _ i j _ _ hj hv
    · obtain rfl := Option.some.inj (hx.symm.trans hx')
      exact emittedFrame_diag _
    · simp [hx'] at hx

theorem State.received_length {s : State} (h : s.len = Config.frameLen s.topo) (a : Answer) :
    (s.received a).length = Config.frameLen s.topo := by
  rw [State.received, h]
  cases s.topo <;> rfl

/-- The log entry that an answer makes of a legal frame. -/
theorem State.emittedEntry_answered {s : State} (hn : s.len = Config.frameLen s.topo) (h : Handle) {tx : Frame}
    (htx : emittedFrame s.topo tx = true) (a : Answer) :
    emittedEntry s.topo
      { handle := h, tx, outcome := if a.result < 0 then .fail a.result else .ok (s.received a) } = true := by
  by_cases ha : a.result < 0 <;> simp [emittedEntry, htx, ha, State.received_length hn]

theorem State.init_log_nil {s : State} (c : Construction) (hl : s.life = .unconstructed)
    (h : (s.init c).life ≠ .unconstructed) : (s.init c).log = [] := by
  rcases State.init_cases s c with ⟨_, _, _, _, hi⟩ | ⟨_, _, hi⟩
  · simp [hi]
  · simp [hi, hl] at h

/-- A step out of Unconstructed is a successful INIT, which starts an empty log. -/
theorem step_log_nil_of_unconstructed {s t : State} (hl : s.life = .unconstructed) (ht : t.life ≠ .unconstructed)
    (hs : step s = .next t) : t.log = [] := by
  rcases step_cases hs with
    ⟨e, es, _, rfl⟩ | ⟨_, rfl | ⟨c, _, _, rfl⟩ | ⟨_, _, _, hr, _⟩ | ⟨hlive, _⟩ | ⟨hlive, _⟩⟩
  · simp [hl] at ht
  · exact absurd hl ht
  · exact State.init_log_nil c hl ht
  · simp [State.ready, hl] at hr
  · simp [hl] at hlive
  · simp [hl] at hlive

/-- A step of a constructed instance keeps the log legal: the entry it may append is the outstanding transfer's. -/
theorem step_keeps_log_emitted {s t : State} (hl : s.life ≠ .unconstructed) (hn : s.len = Config.frameLen s.topo)
    (hf : s.framesLegal = true) (hs : step s = .next t) : ∀ e ∈ t.log, emittedEntry s.topo e = true := by
  obtain ⟨hlog, hout⟩ := s.framesLegal_iff.1 hf hl
  rcases logGrowsByAnsweredTransfer s t hl hs with ⟨hsame, _⟩ | ⟨h, tx, a, rest, hx, _, _, hgrow, _⟩
  · rwa [hsame]
  · simp only [hgrow, List.mem_append, List.mem_singleton]
    rintro e (he | rfl)
    · exact hlog e he
    · exact State.emittedEntry_answered hn h (hout _ hx) a

end Sys2Proof.Machine
end

section
/-! SUPPORT. A device that is reset, or that receives a command byte of no row of the opcode table (R58 d, R83 c). -/

namespace Sys2Proof.Machine

theorem exec_rst (d : Dev) (a : Addr6) (data : Byte) (s : State) :
    exec (.rst d a data) s = .next (s.setDevice d Device.unknown) := rfl

/-- The bytes 0x01 to 0x3F have DIAG's opcode and a non-zero address. -/
theorem decodeCommand_undefined {b : Byte} (h0 : b ≠ 0x00) (h : b.toNat < 64) :
    ∃ a : Addr6, a ≠ 0 ∧ decodeCommand b = (.diag, a) := by
  revert b; decide

theorem decodeWire_undefined {w : WireWord} (h0 : w.cmd ≠ 0x00) (h : w.cmd.toNat < 64) :
    decodeWire w = .error .undefinedCommandByte := by
  obtain ⟨a, ha, hd⟩ := decodeCommand_undefined h0 h
  simp only [decodeWire, hd, if_neg ha]

theorem Device.receive_undefined {cmd : Byte} (data : Byte) (x : Device) (h0 : cmd ≠ 0x00) (h : cmd.toNat < 64) :
    x.receive cmd data = Device.unknown := by
  obtain ⟨a, ha, hd⟩ := decodeCommand_undefined h0 h
  simp only [Device.receive, hd, if_neg ha]

end Sys2Proof.Machine
end

section
/-! The statements about the frames on the wire and the events at the devices (20_memory.md), settled. -/

open Sys2Proof Sys2Proof.Machine

/-- Settles O54: the invariant makes the outstanding frame legal, INIT starts an empty log, and every other step appends
at most the frame that was outstanding. -/
theorem stepKeepsFramesLegal : Obligations.StepKeepsFramesLegal := by
  intro s t hi hf hs
  refine t.framesLegal_iff.2 fun ht => ⟨?_, fun x hx => ?_⟩
  · by_cases hl : s.life = .unconstructed
    · simp [step_log_nil_of_unconstructed hl ht hs]
    · obtain ⟨htopo, _⟩ := stepKeepsConfiguration s t hl hs
      rw [htopo]
      exact step_keeps_log_emitted hl (State.sequencerFits_len ((s.inv_iff.1 hi).1 hl)) hf hs
  · exact State.emittedFrame_of_sequencerFits ((t.inv_iff.1 (stepKeepsInvariant s t hi hs)).1 ht) hx

/-- Settles O6: such a word decodes to no instruction, and its event makes the device unknown. -/
theorem undefinedCommandByteLeavesDeviceUnknown : Obligations.UndefinedCommandByteLeavesDeviceUnknown := by
  intro s w es hw h0 h
  refine ⟨fun i => by simp [decodeWire_undefined h0 h], ?_⟩
  rw [step_external hw, State.externalChange, State.receiveWord, Device.receive_undefined _ _ h0 h]
  rfl

/-- Settles O17: RST is given no effect but to leave its device unknown, `exec_rst`. -/
theorem resetCommandLeavesDeviceUnknown : Obligations.ResetCommandLeavesDeviceUnknown := by
  intro s d a data
  exact exec_rst d a data s

/-- Settles O33: at a ready port with no event ahead the fetch is the request's, `step_request`. -/
theorem stepRunsDecodedRequest : Obligations.StepRunsDecodedRequest := by
  intro s r rs i hr hw hq hd
  exact step_request hr hw hq hd

/-- Settles O34: an event at a device is fetched first, `step_deviceWord`. -/
theorem stepRunsDecodedDeviceWord : Obligations.StepRunsDecodedDeviceWord := by
  intro s w es i hw hd
  exact step_deviceWord hw hd

/-- Settles O35: the step is the event's change of its device, and a changed register is a write of the register space. -/
theorem deviceMayChangeByItself : Obligations.DeviceMayChangeByItself := by
  intro s es d k v l
  have hdev : { s with external := es }.device d = s.device d := State.device_congr rfl rfl d
  refine ⟨fun hw => ⟨_, step_external hw, ?_⟩, fun hw => ?_, fun hw => step_external hw⟩
  · rw [hdev]
    exact ⟨rfl, Memory.read_write_same _ _ _, fun b hb => Memory.read_write_other _ _ _ _ hb⟩
  · rw [step_external hw, State.externalChange, hdev]
end

section
/-! SUPPORT. Both levels of 30_encoding.md, in both directions: the port word of an instruction survives its bytes and
decodes to the instruction, a device word is rebuilt from the instruction it spells, and what decodes to nothing is refused
at the port. -/

namespace Sys2Proof.Machine

/-! ### From an instruction to its bytes and back (R70, R71, R73, R80 to R82) -/

/-- The device word of a wire command starts with a command byte, also where WellFormed leaves the address out. -/
theorem encodeWord_wire {i : Instr} (h : isRequest i = false) :
    ∃ w : WireWord, encodeWord i = .wire w ∧ isCommandByte w.cmd = true := by
  cases i with
  | diag d data => exact ⟨_, rfl, isCommandByte_zero⟩
  | rd d a data => exact ⟨_, rfl, isCommandByte_commandByte .rd a (by decide)⟩
  | rst d a data => exact ⟨_, rfl, isCommandByte_commandByte .rst a (by decide)⟩
  | wr d a v => exact ⟨_, rfl, isCommandByte_commandByte .wr a (by decide)⟩
  | _ => cases h

/-- The record of a request has an operation code other than the reserved 0x0, and a selection field that is not the
reserved tag. -/
theorem encodeWord_request {i : Instr} (h : isRequest i = true) :
    ∃ (r : RequestRecord) (sel : Selection), encodeWord i = .request r ∧ r.sel = sel.field ∧ r.op ≠ 0 := by
  cases i with
  | diag | rd | rst | wr => cases h
  | relaysOn dev sel | relaysOff dev sel => exact ⟨_, sel, rfl, rfl, by simp [emptyRecord]⟩
  | _ => exact ⟨_, .mask 0, rfl, rfl, by simp [emptyRecord]⟩

theorem parse_encode (i : Instr) : parse (encode i) = .ok (encodeWord i) := by
  rw [encode]
  cases hi : isRequest i with
  | false =>
    obtain ⟨w, hw, hc⟩ := encodeWord_wire hi
    rw [hw, parse_wire w hc]
  | true =>
    obtain ⟨r, sel, hr, hs, ho⟩ := encodeWord_request hi
    rw [hr, parse_request r sel hs ho]

theorem decodeWord_encodeWord (i : Instr) : decodeWord (encodeWord i) = .ok i := by
  cases i with
  | diag d data => exact decodeWire_encode d .diag 0 data
  | rd d a data => exact decodeWire_encode d .rd a data
  | rst d a data => exact decodeWire_encode d .rst a data
  | wr d a v => exact decodeWire_encode d .wr a v
  | relaysOn dev sel | relaysOff dev sel =>
    simp [encodeWord, decodeWord, decodeRequest, emptyRecord, Except.map]
  | _ => rfl

/-- Every instruction survives its bytes, well formed or not. -/
theorem decode_encode (i : Instr) : decode (encode i) = .ok i := by
  rw [decode, parse_encode]
  exact decodeWord_encodeWord i

/-! ### From a device word to its instruction and back (R70 to R74) -/

theorem exists_commandByte (b : Byte) : ∃ (op : Opcode) (a : Addr6), b = commandByte op (a.setWidth 8) :=
  ⟨_, _, (commandByte_decodeCommand b).symm⟩

theorem encodeWord_of_decodeWire {w : WireWord} {i : Instr} (h : decodeWire w = .ok i) : encodeWord i = .wire w := by
  obtain ⟨d, cmd, data⟩ := w
  obtain ⟨op, a, rfl⟩ := exists_commandByte cmd
  rw [decodeWire_encode] at h
  cases op with
  | diag =>
    by_cases ha : a = 0
    · subst ha
      cases h
      rfl
    · rw [if_neg ha] at h
      cases h
  | rd | rst | wr =>
    cases h
    rfl

/-! ### Records that spell no request (R83 a, U15) -/

theorem decodeRequest_reservedOp {r : RequestRecord} (h : r.op = 0x0 ∨ r.op = 0xE ∨ r.op = 0xF) :
    decodeRequest r = .error .reservedOp := by
  rcases h with h | h | h <;> simp [decodeRequest, h]

theorem decodeRequest_reservedTag {r : RequestRecord} (h : r.op = 0x9 ∨ r.op = 0xA) (hs : r.sel = .reserved) :
    decodeRequest r = .error .reservedTag := by
  rcases h with h | h <;> simp [decodeRequest, h, hs, decodeSelection, Except.map]

/-- A record that decodes to nothing is refused with the decoder's reason. -/
theorem step_undefinedRequest {s : State} {r : RequestRecord} {rs : List RequestRecord} {e : Reject} (hr : s.ready = true)
    (hw : s.external = []) (hq : s.requests = r :: rs) (hd : decodeRequest r = .error e) :
    step s = .refused (.undefinedRequest e) := by
  obtain ⟨hl, hp⟩ := s.ready_iff.1 hr
  simp [step, fetch, fetchRequest, hw, hl, hp, hq, hd]

/-! ### The data byte of a frame (R78) -/

theorem dataByte_eq (op : Opcode) (v : Byte) : dataByte op v = if op = .wr then v else 0x00 := by
  cases op <;> rfl

/-! ### Commands whose device effect is not given (R83 c, R227, U6) -/

theorem Device.onDiag_nonFiller {data : Byte} (x : Device) (h : data ≠ 0x00) : x.onDiag data = Device.unknown := if_neg h

theorem Device.onRead_nonFiller (a : Addr6) {data : Byte} (x : Device) (h : data ≠ 0x00) :
    x.onRead a data = Device.unknown := by
  rw [Device.onRead, beq_false_of_ne h, Bool.and_false]
  rfl

theorem Device.onRead_unnamed {a : Addr6} (data : Byte) (x : Device) (h : namedAddress a = false) :
    x.onRead a data = Device.unknown := by
  simp [Device.onRead, h]

theorem Device.onWrite_unnamed {a : Addr6} (v : Byte) (x : Device) (h : namedAddress a = false) :
    x.onWrite a v = Device.unknown := by
  simp [Device.onWrite, h]

end Sys2Proof.Machine
end

section
/-! The statements about the encodings (30_encoding.md), settled. -/

open Sys2Proof Sys2Proof.Machine

/-- Settles O3: the bytes parse back to the port word and the port word decodes to the instruction, `decode_encode`, which
does not need the instruction to be well formed. -/
theorem instructionBytesRoundTrip : Obligations.InstructionBytesRoundTrip := by
  intro i _
  exact decode_encode i

/-- Settles O4: every command byte is the command byte of its parts, so the instruction's word is the one decoded. -/
theorem deviceWordDecodesInjectively : Obligations.DeviceWordDecodesInjectively := by
  intro w i h
  exact encodeWord_of_decodeWire h

/-- Settles O5: the fetch refuses with the reason for which the decoder rejects the record. -/
theorem reservedRequestsAreRefused : Obligations.ReservedRequestsAreRefused := by
  intro s r rs hr hw hq
  exact ⟨fun ho => step_undefinedRequest hr hw hq (decodeRequest_reservedOp ho),
    fun ho hs => step_undefinedRequest hr hw hq (decodeRequest_reservedTag ho hs)⟩

/-- Settles O7: each of the twelve words is the encoding of its instruction; op 0xE is rejected by evaluation. -/
theorem specWordsDecode : Obligations.SpecWordsDecode := by
  exact ⟨decode_encode (.diag .d1 0x00), decode_encode (.rd .d1 7 0x00), decode_encode (.rst .d2 8 0x00),
    decode_encode (.wr .d2 3 0x22), decode_encode (.read1 1 7), decode_encode (.write2 7 0x11 3 0x22),
    decode_encode (.relayOff 1 8), decode_encode (.relaysOff 2 (.mask 0x0F)), decode_encode (.relaysOn 1 (.list [1, 3, 3])),
    decode_encode (.status 2), decode_encode (.health 1 3), decode_encode .teardown, rfl⟩

/-- Settles O8: the positions are `encodeSingleFrame_independent`, `_d1` and `_d2`, the data byte `dataByte_eq`. -/
theorem singleFrameLayout : Obligations.SingleFrameLayout := by
  intro op d a v
  rw [encodeSingleFrame_independent, encodeSingleFrame_d1, encodeSingleFrame_d2, dataByte_eq]
  exact ⟨rfl, rfl, rfl⟩

/-- Settles O18: an address outside 1..7 has no name, and a data byte other than the filler is one the core never sends. -/
theorem ungivenCommandLeavesDeviceUnknown : Obligations.UngivenCommandLeavesDeviceUnknown := by
  intro s d a v
  refine ⟨fun ha => ?_, fun hv => ?_⟩
  · have hn : namedAddress a = false := Bool.eq_false_iff.2 fun h => ha ((namedAddress_iff a).1 h)
    rw [exec_rd, exec_wr, Device.onRead_unnamed _ _ hn, Device.onWrite_unnamed _ _ hn]
    exact ⟨rfl, rfl⟩
  · rw [exec_diag, exec_rd, Device.onDiag_nonFiller _ hv, Device.onRead_nonFiller _ _ hv]
    exact ⟨rfl, rfl⟩
end

section
/-! SUPPORT. The Frame Codec (40_frame_codec.md): the guard and the number of a command byte, and the bytes of a received
frame for each length. -/

namespace Sys2Proof

/-! ### The command byte (R70, R100, R102) -/

theorem encodeCommand_valid (op : Opcode) {a : Nat} (h : 1 ≤ a ∧ a ≤ 8) :
    encodeCommand op a = .ok (commandByte op (BitVec.ofNat 8 a)) := if_pos ((validAddress_iff a).2 h)

theorem encodeCommand_invalid (op : Opcode) {a : Nat} (h : ¬ (1 ≤ a ∧ a ≤ 8)) :
    encodeCommand op a = .error .invalidAddress := if_neg fun hv => h ((validAddress_iff a).1 hv)

/-- An address of R102 is the number of its byte. -/
theorem toNat_ofNat_address {a : Nat} (h : a ≤ 8) : (BitVec.ofNat 8 a).toNat = a := Nat.mod_eq_of_lt (by omega)

/-- An address that fits its six bits leaves the opcode's bits alone, so the assembly formula is a sum (R70). -/
theorem toNat_commandByte (op : Opcode) {a : Byte} (h : a.toNat < 64) :
    (commandByte op a).toNat = op.code.toNat * 64 + a.toNat := by
  have hop : (op.code.setWidth 8 <<< 6).toNat = op.code.toNat <<< 6 := by cases op <;> rfl
  rw [commandByte, BitVec.toNat_or, hop, ← Nat.shiftLeft_add_eq_or_of_lt h, Nat.shiftLeft_eq]

end Sys2Proof

namespace Sys2Proof.Machine

/-! ### The received frame (R121) -/

theorem State.received_two {s : State} (h : s.len = 2) (a : Answer) : s.received a = [a.rx.b0, a.rx.b1] := by
  rw [State.received, h]
  rfl

theorem State.received_four {s : State} (h : s.len = 4) (a : Answer) :
    s.received a = [a.rx.b0, a.rx.b1, a.rx.b2, a.rx.b3] := by
  rw [State.received, h]
  rfl

end Sys2Proof.Machine
end

section
/-! The statements about the Frame Codec (40_frame_codec.md), settled. -/

open Sys2Proof Sys2Proof.Machine

/-- Settles O1: an address in 1..8 lies in the low six bits, so the byte decodes to its parts (`decodeCommand_address`). -/
theorem commandByteRoundTrip : Obligations.CommandByteRoundTrip := by
  intro op a h1 h8
  have ha := toNat_ofNat_address (a := a) (by omega)
  refine ⟨_, encodeCommand_valid op ⟨h1, h8⟩, ?_⟩
  rw [decodeCommand_address op _ (by omega), BitVec.setWidth_ofNat_of_le (by decide)]

/-- Settles O2: the guard is `validAddress_iff`, and inside it the byte's number is `toNat_commandByte`. -/
theorem encodeCommandFormulaAndGuard : Obligations.EncodeCommandFormulaAndGuard := by
  intro op a
  refine ⟨fun h => ⟨_, encodeCommand_valid op h, ?_⟩, encodeCommand_invalid op⟩
  have ha := toNat_ofNat_address (a := a) (by omega)
  rw [toNat_commandByte op (by omega), ha]

/-- Settles O9: the data bytes of the pair frame are `dataByte_eq`, the follow-up frames the two `diagFrame` equations. -/
theorem pairAndFollowUpFrameLayout : Obligations.PairAndFollowUpFrameLayout := by
  refine ⟨fun op a1 v1 a2 v2 => ?_, diagFrame_independent, diagFrame_daisyChained⟩
  rw [encodePairFrame, dataByte_eq, dataByte_eq]

/-- Settles O10: a diagnosis word is its two bytes (`decodeStatus_append`), and the length of the frame register says which
bytes of the buffer the frame holds. -/
theorem receivedFrameDecoding : Obligations.ReceivedFrameDecoding := by
  intro s a
  simp only [decodeStatus_append]
  refine ⟨fun h d => ?_, fun h => ?_⟩
  · rw [State.received_two h]
    exact ⟨rfl, rfl⟩
  · rw [State.received_four h]
    exact ⟨rfl, rfl, rfl, rfl⟩
end

section
/-! SUPPORT. The checks of each kind of request on operands in range (R181, R183, R186), and what executing a validated
request answers (R120). -/

namespace Sys2Proof.Machine

theorem firstError_device_address {dev a : Byte} (hdev : dev = 1 ∨ dev = 2) (h1 : 1 ≤ a.toNat) (h8 : a.toNat ≤ 8) :
    firstError [checkDevice dev, checkAddress a] = none := by
  rw [(checkDevice_eq_none dev).2 hdev, (checkAddress_eq_none a).2 ((validAddress_iff _).2 ⟨h1, h8⟩)]
  rfl

theorem firstError_topology_addresses {topo : Topology} {a1 a2 : Byte} (ht : topo = .daisyChained)
    (h1 : 1 ≤ a1.toNat) (h1' : a1.toNat ≤ 8) (h2 : 1 ≤ a2.toNat) (h2' : a2.toNat ≤ 8) :
    firstError [checkTopology topo, checkAddress a1, checkAddress a2] = none := by
  rw [(checkTopology_eq_none topo).2 ht, (checkAddress_eq_none a1).2 ((validAddress_iff _).2 ⟨h1, h1'⟩),
    (checkAddress_eq_none a2).2 ((validAddress_iff _).2 ⟨h2, h2'⟩)]
  rfl

theorem firstError_device_relay {dev r : Byte} (hdev : dev = 1 ∨ dev = 2) (h1 : 1 ≤ r.toNat) (h8 : r.toNat ≤ 8) :
    firstError [checkDevice dev, checkRelay r] = none := by
  rw [(checkDevice_eq_none dev).2 hdev, (checkRelay_eq_none r).2 ((validRelay_iff r).2 ⟨h1, h8⟩)]
  rfl

theorem firstError_device_selection {dev m : Byte} {sel : Selection} (hdev : dev = 1 ∨ dev = 2)
    (hm : normalise sel = .ok m) : firstError [checkDevice dev, checkSelection sel] = none := by
  rw [(checkDevice_eq_none dev).2 hdev, (checkSelection_eq_none sel).2 ⟨m, hm⟩]
  rfl

/-- Executing a validated request at a ready port is its effect (R120). -/
theorem exec_valid {s : State} {i : Instr} (hr : s.ready = true) (hi : isRequest i = true)
    (hv : validate s.topo i = none) : exec i s = .next (acceptedEffect i s) := by
  rw [exec_request i s hi, State.accept_valid s i _ hr hv]

/-- An accepted instruction that changes the outstanding transfer is the request in progress afterwards. -/
theorem acceptedEffect_issues {i : Instr} {s : State} (h : (acceptedEffect i s).xferOut ≠ s.xferOut) :
    (acceptedEffect i s).cur = some i := by
  rcases acceptedEffect_cases i s with ⟨_, _, _, he⟩ | ⟨_, _, _, _, he⟩ | ⟨_, _, he⟩ | ⟨_, he⟩ | ⟨_, he⟩ <;>
    rw [he] at h ⊢
  · simp
  · simp
  all_goals simp at h

end Sys2Proof.Machine
end

section
/-! SUPPORT. A step while a transfer is outstanding, and where a step can stop with a fault (R120, R122, R226): only at an
ANSWER or a FINISH, and there the sequencer's invariant excludes it. -/

namespace Sys2Proof.Machine

/-- What the invariant says while a transfer is outstanding. -/
theorem State.sequencerFits_outstanding {s : State} (h : s.sequencerFits = true)
    (hp : s.phase = .commandIssued ∨ s.phase = .resultPending) :
    ∃ i j h tx, s.cur = some i ∧ jobOf i = some j ∧ s.xferOut = some (h, tx) ∧
      ((s.phase = .commandIssued ∧ stageFits j s.stage = true) ∨
        (s.phase = .resultPending ∧ readStageFits j s.stage = true)) := by
  obtain ⟨i, j, hc, hj, _, _, ⟨hp', hf, hx⟩ | ⟨hp', hf, hx⟩ | ⟨hp', _⟩⟩ :=
    State.sequencerFits_busy h (by rcases hp with hp | hp <;> simp [hp])
  · exact ⟨i, j, _, _, hc, hj, hx, .inl ⟨hp', hf⟩⟩
  · exact ⟨i, j, _, _, hc, hj, hx, .inr ⟨hp', hf⟩⟩
  · simp [hp'] at hp

/-- While the transport has not answered, the core holds. -/
theorem State.answer_unanswered {s : State} {i : Instr} {j : Job} {x : Handle × Frame} (hc : s.cur = some i)
    (hj : jobOf i = some j) (hx : s.xferOut = some x) (ha : s.answers = []) : s.answer = .next s := by
  simp [State.answer, hc, hj, hx, ha]

theorem State.afterCommand_not_fault {s : State} {j : Job} (h : Handle) (rx : Frame) (e : Fault)
    (hf : stageFits j s.stage = true) : s.afterCommand j h rx ≠ .fault e := by
  cases j with
  | relay d m f =>
    obtain hs | hs : s.stage = some .readStage ∨ s.stage = some .writeStage := by simpa [stageFits] using hf
    · simp [State.afterCommand, hs]
    · simp [State.afterCommand, hs]
  | _ => simp [State.afterCommand]

theorem State.afterFollowUp_not_fault {s : State} {j : Job} (rx : Frame) (e : Fault) {st : Option Stage}
    (hf : readStageFits j st = true) : s.afterFollowUp j rx ≠ .fault e := by
  cases j with
  | readOne | readPair | relay => simp [State.afterFollowUp]
  | writeOne | writePair | resetOne | resetPair => cases hf

theorem State.answer_not_fault {s : State} (h : s.sequencerFits = true)
    (hp : s.phase = .commandIssued ∨ s.phase = .resultPending) (e : Fault) : s.answer ≠ .fault e := by
  obtain ⟨i, j, h, tx, hc, hj, hx, hf⟩ := State.sequencerFits_outstanding h hp
  cases ha : s.answers with
  | nil => simp [State.answer_unanswered hc hj hx ha]
  | cons a rest =>
    by_cases hn : a.result < 0
    · simp [State.answer_fail hc hj hx ha hn]
    · rcases hf with ⟨hp, hf⟩ | ⟨hp, hf⟩
      · rw [State.answer_command hc hj hx ha (not_lt.1 hn) hp]
        exact State.afterCommand_not_fault _ _ _ hf
      · rw [State.answer_followUp hc hj hx ha (not_lt.1 hn) hp]
        exact State.afterFollowUp_not_fault _ _ hf

theorem State.finish_not_fault {s : State} (h : s.sequencerFits = true) (hp : s.phase = .resultAvailable) (e : Fault) :
    s.finish ≠ .fault e := by
  obtain ⟨i, j, hc, hj, _, hf, _⟩ := State.sequencerFits_read h (.inr hp)
  cases j with
  | readOne | readPair => simp [State.finish, hc, hj]
  | relay d m f =>
    have hs : s.stage = some .readStage := by simpa [readStageFits] using hf
    simp [State.finish, hc, hj, hs]
  | writeOne | writePair | resetOne | resetPair => cases hf

theorem fetchRequest_not_fault (s : State) (e : Fault) : fetchRequest s ≠ .done (.fault e) := by
  unfold fetchRequest
  split
  · simp
  · split <;> simp

theorem fetchUnconstructed_not_fault (s : State) (e : Fault) : fetchUnconstructed s ≠ .done (.fault e) := by
  unfold fetchUnconstructed
  split <;> simp

theorem fetchTornDown_not_fault (s : State) (e : Fault) : fetchTornDown s ≠ .done (.fault e) := by
  unfold fetchTornDown
  split <;> simp

/-- A step that stops with a fault is one whose fetch is the fault: no instruction stops. -/
theorem fetch_of_step_fault {s : State} {e : Fault} (h : step s = .fault e) : fetch s = .done (.fault e) := by
  unfold step at h
  split at h
  · exact absurd h (exec_not_fault _ _ _)
  · rename_i hf
    rw [hf, h]

/-- The only steps that can stop with a fault. -/
theorem step_fault_cases {s : State} {e : Fault} (h : step s = .fault e) :
    s.life = .live ∧
      (((s.phase = .commandIssued ∨ s.phase = .resultPending) ∧ s.answer = .fault e) ∨
        (s.phase = .resultAvailable ∧ s.finish = .fault e)) := by
  cases hw : s.external with
  | cons ev es => simp [step_external hw] at h
  | nil =>
    have hf := fetch_of_step_fault h
    unfold fetch at hf
    cases hl : s.life <;> simp only [hw, hl] at hf
    case unconstructed => exact absurd hf (fetchUnconstructed_not_fault s e)
    case tornDown => exact absurd hf (fetchTornDown_not_fault s e)
    case live =>
      cases hp : s.phase <;> simp only [hp, Fetched.done.injEq] at hf
      case idle => exact absurd hf (fetchRequest_not_fault s e)
      case commandIssued => exact ⟨rfl, .inl ⟨.inl rfl, hf⟩⟩
      case resultPending => exact ⟨rfl, .inl ⟨.inr rfl, hf⟩⟩
      case resultAvailable => exact ⟨rfl, .inr ⟨rfl, hf⟩⟩

end Sys2Proof.Machine
end

section
/-! SUPPORT. The transactions of R120 (a) to (c): the states a request goes through while its transfers are answered, as
the operations of the sequencer applied to the state that accepted it, and the runs that lead through them. -/

namespace Sys2Proof.Machine

/-! ### The states of a transaction -/

section
variable (s : State) (rs : List RequestRecord) (i : Instr) (j : Job) (x y : Answer) (rest : List Answer)

/-- The request `i` is accepted: its record has left the port and its command frame is outstanding. -/
def State.started : State :=
  { s with requests := rs }.startRequest i (s.handleOf (jobTarget j)) (commandFrame s.topo none s.rdval1 j)

/-- The command frame is answered by `x` with `ok`. -/
def State.commandAnswered : State :=
  (s.started rs i j).completeOk (jobTarget j) (s.handleOf (jobTarget j)) (commandFrame s.topo none s.rdval1 j) x rest

/-- The end of a request of one transfer, answered by `x` with `ok`. -/
def State.commandDone : State :=
  (s.commandAnswered rs i j x rest).completeCommand (jobTarget j) (s.received x) .unit

/-- The follow-up DIAG frame of a read is outstanding. -/
def State.readPending : State :=
  (s.commandAnswered rs i j x rest).followUp (jobTarget j) (s.handleOf (jobTarget j)) (s.received x)

/-- The follow-up frame is answered by `y` with `ok`. -/
def State.readAnswered : State :=
  (s.readPending rs i j x (y :: rest)).completeOk (jobTarget j) (s.handleOf (jobTarget j)) (diagFrame s.topo) y rest

/-- The follow-up frame fails with `y`. -/
def State.readFailed : State :=
  ((s.readPending rs i j x (y :: rest)).completeFail (jobTarget j) (s.handleOf (jobTarget j)) (diagFrame s.topo) y
    rest).raise .transportFailure (some y.result)

@[simp] theorem State.started_fields :
    (s.started rs i j).topo = s.topo ∧ (s.started rs i j).cur = some i ∧ (s.started rs i j).stat1 = s.stat1 ∧
    (s.started rs i j).stat2 = s.stat2 ∧ (s.started rs i j).rdval1 = s.rdval1 ∧ (s.started rs i j).rdval2 = s.rdval2 ∧
    (s.started rs i j).requests = rs ∧ (s.started rs i j).log = s.log := by
  simp [State.started]

theorem State.started_sameInstance : s.SameInstance (s.started rs i j) := by
  constructor <;> simp [State.started]

@[simp] theorem State.commandAnswered_fields :
    (s.commandAnswered rs i j x rest).topo = s.topo ∧ (s.commandAnswered rs i j x rest).cur = some i ∧
    (s.commandAnswered rs i j x rest).stat1 = s.stat1 ∧ (s.commandAnswered rs i j x rest).stat2 = s.stat2 ∧
    (s.commandAnswered rs i j x rest).rdval1 = s.rdval1 ∧ (s.commandAnswered rs i j x rest).rdval2 = s.rdval2 ∧
    (s.commandAnswered rs i j x rest).xferOut = none ∧ (s.commandAnswered rs i j x rest).requests = rs ∧
    (s.commandAnswered rs i j x rest).answers = rest ∧
    (s.commandAnswered rs i j x rest).log = s.log ++ [{
      handle := s.handleOf (jobTarget j), tx := commandFrame s.topo none s.rdval1 j, outcome := .ok (s.received x) }] := by
  have hx := State.received_congr (s.started_sameInstance rs i j).len x
  simp [State.commandAnswered, hx]

theorem State.commandAnswered_sameInstance : s.SameInstance (s.commandAnswered rs i j x rest) :=
  (s.started_sameInstance rs i j).trans (by constructor <;> simp [State.commandAnswered])

@[simp] theorem State.commandDone_fields :
    (s.commandDone rs i j x rest).stat1 = (s.updateStat (jobTarget j) (s.received x)).stat1 ∧
    (s.commandDone rs i j x rest).stat2 = (s.updateStat (jobTarget j) (s.received x)).stat2 ∧
    (s.commandDone rs i j x rest).rdval1 = s.rdval1 ∧ (s.commandDone rs i j x rest).rdval2 = s.rdval2 ∧
    (s.commandDone rs i j x rest).requests = rs ∧ (s.commandDone rs i j x rest).answers = rest ∧
    (s.commandDone rs i j x rest).log = (s.commandAnswered rs i j x rest).log := by
  simp [State.commandDone]

theorem State.commandDone_sameInstance : s.SameInstance (s.commandDone rs i j x rest) :=
  (s.commandAnswered_sameInstance rs i j x rest).trans (by constructor <;> simp [State.commandDone])

theorem State.commandDone_rests : (s.commandDone rs i j x rest).Rests := by
  constructor <;> simp [State.commandDone]

@[simp] theorem State.readPending_fields :
    (s.readPending rs i j x rest).topo = s.topo ∧ (s.readPending rs i j x rest).phase = .resultPending ∧
    (s.readPending rs i j x rest).cur = some i ∧
    (s.readPending rs i j x rest).stat1 = (s.updateStat (jobTarget j) (s.received x)).stat1 ∧
    (s.readPending rs i j x rest).stat2 = (s.updateStat (jobTarget j) (s.received x)).stat2 ∧
    (s.readPending rs i j x rest).rdval1 = s.rdval1 ∧ (s.readPending rs i j x rest).rdval2 = s.rdval2 ∧
    (s.readPending rs i j x rest).xferOut = some (s.handleOf (jobTarget j), diagFrame s.topo) ∧
    (s.readPending rs i j x rest).requests = rs ∧ (s.readPending rs i j x rest).answers = rest ∧
    (s.readPending rs i j x rest).log = (s.commandAnswered rs i j x rest).log := by
  simp [State.readPending]

theorem State.readPending_sameInstance : s.SameInstance (s.readPending rs i j x rest) :=
  (s.commandAnswered_sameInstance rs i j x rest).trans (by constructor <;> simp [State.readPending])

/-- A read's two entries of the log, the follow-up with the outcome `o`. -/
def State.readLog (o : XferOutcome) : List LogEntry :=
  [{ handle := s.handleOf (jobTarget j), tx := commandFrame s.topo none s.rdval1 j, outcome := .ok (s.received x) },
   { handle := s.handleOf (jobTarget j), tx := diagFrame s.topo, outcome := o }]

@[simp] theorem State.readAnswered_fields :
    (s.readAnswered rs i j x y rest).topo = s.topo ∧ (s.readAnswered rs i j x y rest).cur = some i ∧
    (s.readAnswered rs i j x y rest).stat1 = (s.updateStat (jobTarget j) (s.received x)).stat1 ∧
    (s.readAnswered rs i j x y rest).stat2 = (s.updateStat (jobTarget j) (s.received x)).stat2 ∧
    (s.readAnswered rs i j x y rest).rdval2 = s.rdval2 ∧ (s.readAnswered rs i j x y rest).xferOut = none ∧
    (s.readAnswered rs i j x y rest).requests = rs ∧ (s.readAnswered rs i j x y rest).answers = rest ∧
    (s.readAnswered rs i j x y rest).log = s.log ++ s.readLog j x (.ok (s.received y)) := by
  have hy := State.received_congr (s.readPending_sameInstance rs i j x (y :: rest)).len y
  simp [State.readAnswered, State.readLog, hy]

theorem State.readAnswered_sameInstance : s.SameInstance (s.readAnswered rs i j x y rest) :=
  (s.readPending_sameInstance rs i j x (y :: rest)).trans (by constructor <;> simp [State.readAnswered])

@[simp] theorem State.readFailed_fields :
    (s.readFailed rs i j x y rest).stat1 = (s.updateStat (jobTarget j) (s.received x)).stat1 ∧
    (s.readFailed rs i j x y rest).stat2 = (s.updateStat (jobTarget j) (s.received x)).stat2 ∧
    (s.readFailed rs i j x y rest).rdval1 = s.rdval1 ∧ (s.readFailed rs i j x y rest).rdval2 = s.rdval2 ∧
    (s.readFailed rs i j x y rest).res = .err .transportFailure (some y.result) ∧
    (s.readFailed rs i j x y rest).requests = rs ∧ (s.readFailed rs i j x y rest).answers = rest ∧
    (s.readFailed rs i j x y rest).log = s.log ++ s.readLog j x (.fail y.result) := by
  simp [State.readFailed, State.readLog]

theorem State.readFailed_sameInstance : s.SameInstance (s.readFailed rs i j x y rest) :=
  (s.readPending_sameInstance rs i j x (y :: rest)).trans (by constructor <;> simp [State.readFailed])

theorem State.readFailed_rests : (s.readFailed rs i j x y rest).Rests := by
  constructor <;> simp [State.readFailed]

end

/-- After a failed follow-up nothing is known of the device it addressed (R221). -/
theorem State.device_readFailed (s : State) (rs : List RequestRecord) (i : Instr) {j : Job} {d : Dev} (x y : Answer)
    (rest : List Answer) (hj : jobTarget j = .one d) : (s.readFailed rs i j x y rest).device d = Device.unknown := by
  have hr := State.reaches_addressed s.topo d
  cases d <;> simp [State.device, State.readFailed, hj, hr]

/-- The status update of one device: its whole word, and the other device's word as it was (R123). -/
theorem State.stat_of_updateStat {s t : State} {d : Dev} {rx : Frame} (h1 : t.stat1 = (s.updateStat (.one d) rx).stat1)
    (h2 : t.stat2 = (s.updateStat (.one d) rx).stat2) :
    t.stat d = decodeStatus s.topo d rx ∧ t.stat (otherDev d) = s.stat (otherDev d) := by
  cases d <;> simp [State.stat, otherDev, h1, h2]

/-! ### The runs -/

/-- The request `i`, whose job is `j`, is the oldest one presented at a ready port, passes all of its checks, and is no
relay request. -/
structure State.Presents (s : State) (rs : List RequestRecord) (i : Instr) (j : Job) : Prop where
  ready : s.ready = true
  external : s.external = []
  record : ∃ r, s.requests = r :: rs ∧ decodeRequest r = .ok i
  valid : validate s.topo i = none
  job : jobOf i = some j
  unstaged : stageFits j none = true

/-- The job ends when its command frame is answered with `ok` (R120 b). -/
def EndsAfterCommand (j : Job) : Prop :=
  ∀ (t : State) (h : Handle) (rx : Frame), t.afterCommand j h rx = .next (t.completeCommand (jobTarget j) rx .unit)

/-- The job issues its follow-up when its command frame is answered with `ok` (R120 a). -/
def AsksFollowUp (j : Job) : Prop :=
  ∀ (t : State) (h : Handle) (rx : Frame), t.afterCommand j h rx = .next (t.followUp (jobTarget j) h rx)

theorem endsAfterCommand_writeOne (d : Dev) (a v : Byte) : EndsAfterCommand (.writeOne d a v) := fun _ _ _ => rfl
theorem endsAfterCommand_writePair (a1 v1 a2 v2 : Byte) : EndsAfterCommand (.writePair a1 v1 a2 v2) := fun _ _ _ => rfl
theorem endsAfterCommand_resetOne (d : Dev) (a : Byte) : EndsAfterCommand (.resetOne d a) := fun _ _ _ => rfl
theorem endsAfterCommand_resetPair (a1 a2 : Byte) : EndsAfterCommand (.resetPair a1 a2) := fun _ _ _ => rfl
theorem asksFollowUp_readOne (d : Dev) (a : Byte) : AsksFollowUp (.readOne d a) := fun _ _ _ => rfl
theorem asksFollowUp_readPair (a1 a2 : Byte) : AsksFollowUp (.readPair a1 a2) := fun _ _ _ => rfl

/-- An answered follow-up has latched what it read, and the configuration is as it was (R120 c). -/
theorem State.afterFollowUp_available {s t : State} {j : Job} {rx : Frame} (h : s.afterFollowUp j rx = .next t) :
    s.SameInstance t ∧ t.phase = .resultAvailable := by
  rcases State.afterFollowUp_cases h with ⟨d, _, rfl⟩ | ⟨_, rfl⟩
  · exact ⟨by constructor <;> simp, by simp⟩
  · exact ⟨by constructor <;> simp, by simp⟩

/-- Every request that uses the bus in one stage begins with its command frame. -/
theorem acceptedEffect_of_job {i : Instr} {j : Job} (hj : jobOf i = some j) (hf : stageFits j none = true) (s : State) :
    acceptedEffect i s = s.startRequest i (s.handleOf (jobTarget j)) (commandFrame s.topo none s.rdval1 j) := by
  rcases acceptedEffect_cases i s with ⟨j', hj', _, he⟩ | ⟨d, m, f, hj', _⟩ | ⟨hj', _⟩ | ⟨hj', _⟩ | ⟨hi, _⟩
  · obtain rfl : j = j' := by simpa [hj] using hj'
    exact he
  · obtain rfl : j = _ := by simpa [hj] using hj'
    cases hf
  · simp [hj] at hj'
  · simp [hj] at hj'
  · cases i <;> cases hi <;> cases hj

section
variable {s : State} {rs : List RequestRecord} {i : Instr} {j : Job} {x y : Answer} {rest : List Answer}

theorem step_started (h : s.Presents rs i j) : step s = .next (s.started rs i j) := by
  obtain ⟨r, hq, hd⟩ := h.record
  rw [step_accept h.ready h.external hq hd h.valid, acceptedEffect_of_job h.job h.unstaged]
  rfl

/-- Two steps accept the request and answer its command frame with `ok`. -/
theorem run_commandAnswered {t : State} (k : Nat) (h : s.Presents rs i j) (ha : s.answers = x :: rest)
    (hx : 0 ≤ x.result)
    (ht : (s.commandAnswered rs i j x rest).afterCommand j (s.handleOf (jobTarget j)) (s.received x) = .next t) :
    Host.Core.run Sys2Proof.core (k + 2) s = Host.Core.run Sys2Proof.core k t := by
  have h2 := step_commandAnswered (s := s.started rs i j) h.external (s.ready_iff.1 h.ready).1 rfl h.job rfl ha hx rfl ht
  rw [run_step (k + 1) (step_started h), run_step k h2]

/-- A request of one transfer, answered with `ok`, is two steps (R120 b). -/
theorem run_commandDone (h : s.Presents rs i j) (hk : EndsAfterCommand j) (ha : s.answers = x :: rest)
    (hx : 0 ≤ x.result) : Host.Core.run Sys2Proof.core 2 s = .next (s.commandDone rs i j x rest) :=
  run_commandAnswered 0 h ha hx (hk _ _ _)

/-- A read's third step, its follow-up frame answered with `ok` (R120 c). -/
theorem run_readAnswered {t : State} (k : Nat) (h : s.Presents rs i j) (hk : AsksFollowUp j)
    (ha : s.answers = x :: y :: rest) (hx : 0 ≤ x.result) (hy : 0 ≤ y.result)
    (ht : (s.readAnswered rs i j x y rest).afterFollowUp j (s.received y) = .next t) :
    Host.Core.run Sys2Proof.core (k + 3) s = Host.Core.run Sys2Proof.core k t := by
  have hi := s.readPending_sameInstance rs i j x (y :: rest)
  have h3 : step (s.readPending rs i j x (y :: rest)) = .next t :=
    step_followUpAnswered (h := s.handleOf (jobTarget j)) (tx := diagFrame s.topo) (rest := rest)
      (hi.external.trans h.external) (hi.life.trans (s.ready_iff.1 h.ready).1) (by simp) h.job (by simp) (by simp) hy
      (by simp) (by rw [State.received_congr hi.len]; exact ht)
  rw [run_commandAnswered (k + 1) h ha hx (hk _ _ _)]
  exact run_step k h3

/-- A read whose follow-up frame fails is three steps (R187). -/
theorem run_readFailed (h : s.Presents rs i j) (hk : AsksFollowUp j) (ha : s.answers = x :: y :: rest)
    (hx : 0 ≤ x.result) (hy : y.result < 0) :
    Host.Core.run Sys2Proof.core 3 s = .next (s.readFailed rs i j x y rest) := by
  have hi := s.readPending_sameInstance rs i j x (y :: rest)
  have h3 : step (s.readPending rs i j x (y :: rest)) = .next (s.readFailed rs i j x y rest) :=
    step_transferFailed (hi.external.trans h.external) (hi.life.trans (s.ready_iff.1 h.ready).1) (by simp) h.job (by simp)
      (by simp) hy (by simp)
  rw [run_commandAnswered 1 h ha hx (hk _ _ _)]
  exact run_step 0 h3

/-- The fourth step of a read is FINISH, of the values that the third step latched in `t`. -/
theorem run_readFinished {t u : State} (h : s.Presents rs i j) (hk : AsksFollowUp j) (ha : s.answers = x :: y :: rest)
    (hx : 0 ≤ x.result) (hy : 0 ≤ y.result)
    (ht : (s.readAnswered rs i j x y rest).afterFollowUp j (s.received y) = .next t) (hu : t.finish = .next u) :
    Host.Core.run Sys2Proof.core 4 s = .next u := by
  obtain ⟨hs, hp⟩ := State.afterFollowUp_available ht
  have hi := (s.readAnswered_sameInstance rs i j x y rest).trans hs
  have h4 : step t = .next u := by
    rw [step_finish (hi.external.trans h.external) (hi.life.trans (s.ready_iff.1 h.ready).1) hp, hu]
  rw [run_readAnswered 1 h hk ha hx hy ht]
  exact run_step 0 h4

end

/-! ### READ1 and READ2 (R124, R125) -/

section
variable (s : State) (rs : List RequestRecord) (i : Instr) (d : Dev) (a a1 a2 : Byte) (x y : Answer) (rest : List Answer)

/-- The end of a READ1 whose two transfers were answered by `x` and `y`. -/
def State.readOneDone : State :=
  ((s.readAnswered rs i (.readOne d a) x y rest).latchOne d (s.received y)).finishOk
    (.byte (decodeRegisterValue s.topo d (s.received y)))

/-- The end of a READ2 whose two transfers were answered by `x` and `y`. -/
def State.readPairDone : State :=
  ((s.readAnswered rs i (.readPair a1 a2) x y rest).latchPair (s.received y)).finishOk
    (.pair (decodeRegisterValue s.topo .d1 (s.received y)) (decodeRegisterValue s.topo .d2 (s.received y)))

@[simp] theorem State.readOneDone_fields :
    (s.readOneDone rs i d a x y rest).stat1 = (s.updateStat (.one d) (s.received x)).stat1 ∧
    (s.readOneDone rs i d a x y rest).stat2 = (s.updateStat (.one d) (s.received x)).stat2 ∧
    (s.readOneDone rs i d a x y rest).rdval1 = decodeRegisterValue s.topo d (s.received y) ∧
    (s.readOneDone rs i d a x y rest).rdval2 = s.rdval2 ∧
    (s.readOneDone rs i d a x y rest).requests = rs ∧ (s.readOneDone rs i d a x y rest).answers = rest ∧
    (s.readOneDone rs i d a x y rest).log = s.log ++ s.readLog (.readOne d a) x (.ok (s.received y)) := by
  simp [State.readOneDone, jobTarget]

theorem State.readOneDone_sameInstance : s.SameInstance (s.readOneDone rs i d a x y rest) :=
  (s.readAnswered_sameInstance rs i (.readOne d a) x y rest).trans (by constructor <;> simp [State.readOneDone])

theorem State.readOneDone_rests : (s.readOneDone rs i d a x y rest).Rests := ⟨rfl, rfl, rfl, rfl⟩

@[simp] theorem State.readPairDone_fields :
    (s.readPairDone rs i a1 a2 x y rest).stat1 = decodeStatus s.topo .d1 (s.received y) ∧
    (s.readPairDone rs i a1 a2 x y rest).stat2 = decodeStatus s.topo .d2 (s.received y) ∧
    (s.readPairDone rs i a1 a2 x y rest).rdval1 = decodeRegisterValue s.topo .d1 (s.received y) ∧
    (s.readPairDone rs i a1 a2 x y rest).rdval2 = decodeRegisterValue s.topo .d2 (s.received y) ∧
    (s.readPairDone rs i a1 a2 x y rest).requests = rs ∧ (s.readPairDone rs i a1 a2 x y rest).answers = rest ∧
    (s.readPairDone rs i a1 a2 x y rest).log = s.log ++ s.readLog (.readPair a1 a2) x (.ok (s.received y)) := by
  simp [State.readPairDone]

theorem State.readPairDone_sameInstance : s.SameInstance (s.readPairDone rs i a1 a2 x y rest) :=
  (s.readAnswered_sameInstance rs i (.readPair a1 a2) x y rest).trans (by constructor <;> simp [State.readPairDone])

theorem State.readPairDone_rests : (s.readPairDone rs i a1 a2 x y rest).Rests := ⟨rfl, rfl, rfl, rfl⟩

end

section
variable {s : State} {rs : List RequestRecord} {i : Instr} {x y : Answer} {rest : List Answer}

theorem run_readOne {d : Dev} {a : Byte} (h : s.Presents rs i (.readOne d a)) (ha : s.answers = x :: y :: rest)
    (hx : 0 ≤ x.result) (hy : 0 ≤ y.result) :
    Host.Core.run Sys2Proof.core 4 s = .next (s.readOneDone rs i d a x y rest) :=
  run_readFinished h (asksFollowUp_readOne d a) ha hx hy rfl (by simp [State.finish, State.readOneDone, h.job])

theorem run_readPair {a1 a2 : Byte} (h : s.Presents rs i (.readPair a1 a2)) (ha : s.answers = x :: y :: rest)
    (hx : 0 ≤ x.result) (hy : 0 ≤ y.result) :
    Host.Core.run Sys2Proof.core 4 s = .next (s.readPairDone rs i a1 a2 x y rest) :=
  run_readFinished h (asksFollowUp_readPair a1 a2) ha hx hy rfl (by simp [State.finish, State.readPairDone, h.job])

end

end Sys2Proof.Machine
end

section
/-! The statements about the register access engine (41_register_access.md), settled. -/

open Sys2Proof Sys2Proof.Machine

/-- Settles O38: the run is `run_readOne`; the status update is that of the first frame, the value that of the second. -/
theorem read1Transaction : Obligations.Read1Transaction := by
  intro s r rs dev a x y rest hr hw hq hd hdev h1 h8 ha hx hy d
  have h : s.Presents rs (.read1 dev a) (.readOne d a) :=
    ⟨hr, hw, ⟨r, hq, hd⟩, firstError_device_address hdev h1 h8, rfl, rfl⟩
  obtain ⟨hs, hs'⟩ := State.stat_of_updateStat (t := s.readOneDone rs (.read1 dev a) d a x y rest) (s := s) (d := d)
    (rx := s.received x) (by simp) (by simp)
  refine ⟨_, run_readOne h ha hx hy, s.readOneDone_rests rs _ d a x y rest, s.readOneDone_sameInstance rs _ d a x y rest,
    rfl, ?_, ?_, hs, hs', ?_, ?_, ?_⟩ <;> simp [State.readLog, State.handleOf, jobTarget, commandFrame]

/-- Settles O44: the run is `run_readFailed`; the status update of the first frame stands, and the device is forgotten. -/
theorem failedFollowUpKeepsFirstStatus : Obligations.FailedFollowUpKeepsFirstStatus := by
  intro s r rs dev a x y rest hr hw hq hd hdev h1 h8 ha hx hy d
  have h : s.Presents rs (.read1 dev a) (.readOne d a) :=
    ⟨hr, hw, ⟨r, hq, hd⟩, firstError_device_address hdev h1 h8, rfl, rfl⟩
  obtain ⟨hs, hs'⟩ := State.stat_of_updateStat (t := s.readFailed rs (.read1 dev a) (.readOne d a) x y rest) (s := s)
    (d := d) (rx := s.received x) (by simp [jobTarget]) (by simp [jobTarget])
  have hgone : (s.readFailed rs (.read1 dev a) (.readOne d a) x y rest).device d = Device.unknown :=
    State.device_readFailed s rs _ x y rest rfl
  refine ⟨_, run_readFailed h (asksFollowUp_readOne d a) ha hx hy, s.readFailed_rests rs _ _ x y rest,
    s.readFailed_sameInstance rs _ _ x y rest, rfl, ?_, ?_, hs, hs', ?_, by rw [hgone]; rfl, ?_, ?_⟩ <;>
    simp [State.readLog, State.handleOf, jobTarget, commandFrame]

/-- Settles O39: the run is `run_readPair`; the second frame's status update overwrites the first one's. -/
theorem read2Transaction : Obligations.Read2Transaction := by
  intro s r rs a1 a2 x y rest hr hw hq hd ht h1 h1' h2 h2' ha hx hy
  have h : s.Presents rs (.read2 a1 a2) (.readPair a1 a2) :=
    ⟨hr, hw, ⟨r, hq, hd⟩, firstError_topology_addresses ht h1 h1' h2 h2', rfl, rfl⟩
  rw [← ht]
  refine ⟨_, run_readPair h ha hx hy, s.readPairDone_rests rs _ a1 a2 x y rest,
    s.readPairDone_sameInstance rs _ a1 a2 x y rest, rfl, ?_, ?_, ?_, ?_, ?_, ?_, ?_⟩ <;>
    simp [State.readLog, State.handleOf, jobTarget, commandFrame]

/-- Settles O40: the run is `run_commandDone`; RST's frame carries the filler whatever `v` is. -/
theorem singleStepTransaction : Obligations.SingleStepTransaction := by
  intro s r rs i dev a v op x rest hr hw hq hd hi hdev h1 h8 ha hx d
  have hv := firstError_device_address hdev h1 h8
  obtain ⟨j, h, hk, hg, hf⟩ : ∃ j, s.Presents rs i j ∧ EndsAfterCommand j ∧ jobTarget j = .one d ∧
      commandFrame s.topo none s.rdval1 j = encodeSingleFrame s.topo op d a v := by
    rcases hi with ⟨rfl, rfl⟩ | ⟨rfl, rfl⟩
    · exact ⟨_, ⟨hr, hw, ⟨r, hq, hd⟩, hv, rfl, rfl⟩, endsAfterCommand_writeOne d a v, rfl, rfl⟩
    · exact ⟨_, ⟨hr, hw, ⟨r, hq, hd⟩, hv, rfl, rfl⟩, endsAfterCommand_resetOne d a, rfl, rfl⟩
  obtain ⟨hs, hs'⟩ := State.stat_of_updateStat (t := s.commandDone rs i j x rest) (s := s) (d := d) (rx := s.received x)
    (by simp [hg]) (by simp [hg])
  refine ⟨_, run_commandDone h hk ha hx, s.commandDone_rests rs i j x rest, s.commandDone_sameInstance rs i j x rest,
    rfl, ?_, ?_, hs, hs', ?_, ?_, ?_⟩ <;> simp [State.handleOf, hg, hf]

/-- Settles O41: the run is `run_commandDone`; RST's pair frame carries the fillers whatever `v1` and `v2` are. -/
theorem pairSingleStepTransaction : Obligations.PairSingleStepTransaction := by
  intro s r rs i a1 v1 a2 v2 op x rest hr hw hq hd hi ht h1 h1' h2 h2' ha hx
  have hv := firstError_topology_addresses ht h1 h1' h2 h2'
  obtain ⟨j, h, hk, hg, hf⟩ : ∃ j, s.Presents rs i j ∧ EndsAfterCommand j ∧ jobTarget j = .both ∧
      commandFrame s.topo none s.rdval1 j = encodePairFrame op a1 v1 a2 v2 := by
    rcases hi with ⟨rfl, rfl⟩ | ⟨rfl, rfl⟩
    · exact ⟨_, ⟨hr, hw, ⟨r, hq, hd⟩, hv, rfl, rfl⟩, endsAfterCommand_writePair a1 v1 a2 v2, rfl, rfl⟩
    · exact ⟨_, ⟨hr, hw, ⟨r, hq, hd⟩, hv, rfl, rfl⟩, endsAfterCommand_resetPair a1 a2, rfl, rfl⟩
  rw [← ht]
  refine ⟨_, run_commandDone h hk ha hx, s.commandDone_rests rs i j x rest, s.commandDone_sameInstance rs i j x rest,
    rfl, ?_, ?_, ?_, ?_, ?_, ?_, ?_⟩ <;> simp [State.handleOf, hg, hf]

/-- Settles O52: a fault comes from an ANSWER or a FINISH alone, and the invariant gives both a step to take. -/
theorem invariantExcludesFaults : Obligations.InvariantExcludesFaults := by
  intro s hi e h
  obtain ⟨hl, h⟩ := step_fault_cases h
  have hf : s.sequencerFits = true := (s.inv_iff.1 hi).1 (by simp [hl])
  rcases h with ⟨hp, h⟩ | ⟨hp, h⟩
  · exact State.answer_not_fault hf hp e h
  · exact State.finish_not_fault hf hp e h

/-- Settles O59: only the effect of an accepted request issues a transfer, and the invariant that the step keeps has a
validated request in `cur` whenever one is outstanding. -/
theorem transferIssuedOnlyAfterValidation : Obligations.TransferIssuedOnlyAfterValidation := by
  refine ⟨fun s t i he hx => ?_, fun s t hi hs hl hx => ?_⟩
  · rcases exec_cases he with ⟨_, d, rfl⟩ | ⟨hi, hr, hv, rfl⟩ | ⟨_, _, k, _, rfl⟩ | ⟨_, _, _, rfl⟩
    · simp at hx
    · exact ⟨hr, hi, hv, acceptedEffect_issues hx⟩
    · simp at hx
    · exact absurd rfl hx
  · have hf : t.sequencerFits = true := (t.inv_iff.1 (stepKeepsInvariant s t hi hs)).1 hl
    by_cases hp : t.phase = .idle
    · obtain ⟨_, _, hn⟩ := State.sequencerFits_idle hf hp
      exact absurd hn hx
    · obtain ⟨i, _, hc, _, _, hv, _⟩ := State.sequencerFits_busy hf hp
      exact ⟨i, hc, hv⟩

/-- Settles O19: the device and the address pass their checks, so ACCEPT has the request's effect (`exec_valid`). -/
theorem singleDeviceRequestIsIssued : Obligations.SingleDeviceRequestIsIssued := by
  intro s dev a v hr hdev h1 h8 d
  have hv := firstError_device_address hdev h1 h8
  exact ⟨exec_valid hr rfl hv, exec_valid hr rfl hv, exec_valid hr rfl hv⟩

/-- Settles O20: under DaisyChained both addresses pass their checks, so ACCEPT has the request's effect (`exec_valid`). -/
theorem pairRequestIsIssued : Obligations.PairRequestIsIssued := by
  intro s a1 v1 a2 v2 hr ht h1 h1' h2 h2'
  have hv := firstError_topology_addresses ht h1 h1' h2 h2'
  exact ⟨exec_valid hr rfl hv, exec_valid hr rfl hv, exec_valid hr rfl hv⟩

/-- Settles O21: the device and the relay or the selection pass their checks, so ACCEPT starts the read of CTL. -/
theorem relayRequestStartsReadStage : Obligations.RelayRequestStartsReadStage := by
  intro s dev r sel m hr hdev h1 h8 hm d started
  have hv := firstError_device_relay hdev h1 h8
  have hv' := firstError_device_selection hdev hm
  exact ⟨exec_valid hr rfl hv, exec_valid hr rfl hv, exec_valid hr rfl hv', exec_valid hr rfl hv'⟩

/-- Settles O36: the invariant has a transfer and its bus request in place, so the step is an ANSWER that holds. -/
theorem unansweredTransferHolds : Obligations.UnansweredTransferHolds := by
  intro s hi hl hw hp ha
  obtain ⟨i, j, h, tx, hc, hj, hx, _⟩ := State.sequencerFits_outstanding ((s.inv_iff.1 hi).1 (by simp [hl])) hp
  rw [step_answer hw hl hp, State.answer_unanswered hc hj hx ha]
end

section
/-! SUPPORT. The bits of a health code (R152), and the check of a request whose only operand is its device (R183). -/

namespace Sys2Proof.Machine

/-- Bit `i` of a relay's health code is bit `i` of the pair that starts at bit `2r-2` (R152). -/
theorem healthCode_getLsbD (w : Half) (r : Byte) {i : Nat} (hi : i < 2) :
    (healthCode w r).getLsbD i = w.getLsbD (2 * r.toNat - 2 + i) := by
  rw [healthCode, BitVec.getLsbD_extractLsb', decide_eq_true hi, Bool.true_and]

theorem firstError_device {dev : Byte} (hdev : dev = 1 ∨ dev = 2) : firstError [checkDevice dev] = none := by
  rw [(checkDevice_eq_none dev).2 hdev]
  rfl

end Sys2Proof.Machine
end

section
/-! The statements about the Diagnostic Status Store (42_status_store.md), settled. -/

open Sys2Proof Sys2Proof.Machine

/-- Settles O13: both bits are `healthCode_getLsbD`; the high bit's position is `2r-1` because `r` is at least 1. -/
theorem healthCodeBitsAndMeaning : Obligations.HealthCodeBitsAndMeaning := by
  refine ⟨fun w r h1 _ => ⟨?_, healthCode_getLsbD w r (by decide)⟩, rfl, rfl, rfl, rfl⟩
  have hpos : 2 * r.toNat - 1 = 2 * r.toNat - 2 + 1 := by omega
  rw [hpos, healthCode_getLsbD w r (by decide)]

/-- Settles O23: both devices pass the check, so ACCEPT has the query's effect (`exec_valid`), which writes `res` alone. -/
theorem statusReturnsStoredWord : Obligations.StatusReturnsStoredWord := fun _ hr =>
  ⟨exec_valid hr rfl (firstError_device (.inl rfl)), exec_valid hr rfl (firstError_device (.inr rfl))⟩

/-- Settles O24: the device and the relay pass their checks, so ACCEPT has the query's effect (`exec_valid`), which writes
`res` alone. -/
theorem healthReturnsRelayCode : Obligations.HealthReturnsRelayCode := fun _ _ hr h1 h8 =>
  ⟨exec_valid hr rfl (firstError_device_relay (.inl rfl) h1 h8),
    exec_valid hr rfl (firstError_device_relay (.inr rfl) h1 h8)⟩
end

section
/-! SUPPORT. Relay selections and relay bits (R160 to R162, R164): the bits of each form of a selection, when a selection is
refused, what the two relay functions do to a bit, and the checks of a request whose selection is refused. -/

namespace Sys2Proof.Machine

/-! ### The bits of a mask (R160, R161) -/

/-- The bits of a relay's mask bit, past the byte too. -/
theorem one_shiftLeft_getLsbD {n : Nat} (hn : n < 8) (k : Nat) : ((1 : Byte) <<< n).getLsbD k = decide (k = n) := by
  by_cases hk : k < 8
  · exact bit_getLsbD n k hn hk
  · rw [BitVec.getLsbD_of_ge _ _ (not_lt.1 hk), decide_eq_false (by omega)]

/-- Bit `k` of a Boolean sequence that counts down from relay `n` is its element `n-1-k`. -/
theorem boolsMask_getLsbD (bs : List Bool) {n : Nat} (hb : bs.length ≤ n) (hn : n ≤ 8) (k : Nat) :
    (boolsMask n bs).getLsbD k = (decide (k < n) && bs.getD (n - 1 - k) false) := by
  induction bs generalizing n with
  | nil => simp [boolsMask]
  | cons b bs ih =>
    obtain ⟨n, rfl⟩ : ∃ p, n = p + 1 := ⟨n - 1, by simp at hb; omega⟩
    have hhead : (if b then (1 : Byte) <<< n else 0).getLsbD k = (b && decide (k = n)) := by
      cases b
      · simp
      · rw [if_pos rfl, one_shiftLeft_getLsbD (by omega), Bool.true_and]
    simp only [boolsMask, Nat.add_sub_cancel, BitVec.getLsbD_or, hhead, ih (by simpa using hb) (by omega)]
    rcases Nat.lt_trichotomy k n with h | rfl | h
    · obtain ⟨p, hp⟩ : ∃ p, n - k = p + 1 := ⟨n - k - 1, by omega⟩
      have hp' : n - 1 - k = p := by omega
      simp [hp, hp', h, h.ne, Nat.lt_succ_of_lt h]
    · simp
    · simp [h.ne', not_lt.2 h.le, not_le.2 h]

/-- Bit `k` of a list's mask says whether relay `k+1` is in the list. -/
theorem listMask_getLsbD {rs : List Byte} (hrs : ∀ r ∈ rs, validRelay r = true) {k : Nat} (hk : k < 8) :
    (listMask rs).getLsbD k = true ↔ ∃ r ∈ rs, r.toNat = k + 1 := by
  induction rs with
  | nil => simp [listMask]
  | cons r rs ih =>
    obtain ⟨hr, hrs⟩ := List.forall_mem_cons.1 hrs
    simp [listMask, relayBit_getLsbD r k hr hk, ih hrs]

/-! ### When a selection is refused (R161, R162) -/

theorem normalise_bools {bs : List Bool} (h : bs.length = 8) : normalise (.bools bs) = .ok (boolsMask 8 bs) := if_pos h

theorem normalise_bools_invalid {bs : List Bool} (h : bs.length ≠ 8) : normalise (.bools bs) = .error .invalidRelay :=
  if_neg h

theorem normalise_list {rs : List Byte} (h : ∀ r ∈ rs, validRelay r = true) : normalise (.list rs) = .ok (listMask rs) :=
  if_pos (List.all_eq_true.2 h)

theorem normalise_list_invalid {rs : List Byte} (h : ∃ r ∈ rs, ¬ (1 ≤ r.toNat ∧ r.toNat ≤ 8)) :
    normalise (.list rs) = .error .invalidRelay := by
  obtain ⟨r, hr, hn⟩ := h
  exact if_neg fun hall => hn ((validRelay_iff r).1 (List.all_eq_true.1 hall r hr))

/-! ### Requests whose selection is refused (R183, R185, R186) -/

/-- A valid device passes its check, so the selection's is the first that fails. -/
theorem firstError_device_selection_invalid {dev : Byte} {sel : Selection} {k : ErrorKind} (hdev : dev = 1 ∨ dev = 2)
    (hn : normalise sel = .error k) : firstError [checkDevice dev, checkSelection sel] = some k := by
  rw [(checkDevice_eq_none dev).2 hdev, checkSelection, hn]
  rfl

/-- A single relay is checked as the list of that relay alone (R162). -/
theorem checkRelay_eq_checkSelection (r : Byte) : checkRelay r = checkSelection (.list [r]) := rfl

/-- Executing a request that fails a check at a ready port writes `res` alone (R185). -/
theorem exec_invalid {s : State} {i : Instr} {k : ErrorKind} (hr : s.ready = true) (hi : isRequest i = true)
    (hv : validate s.topo i = some k) : exec i s = .next { s with res := .err k none } := by
  rw [exec_request i s hi, State.accept_invalid s i _ k hr hv]
  rfl

/-- RELAYS_ON and RELAYS_OFF of a refused selection write `res` alone. -/
theorem exec_relays_invalid {s : State} {dev : Byte} {sel : Selection} {k : ErrorKind} (hr : s.ready = true)
    (hdev : dev = 1 ∨ dev = 2) (hn : normalise sel = .error k) :
    ∀ i ∈ ([.relaysOn dev sel, .relaysOff dev sel] : List Instr), exec i s = .next { s with res := .err k none } := by
  have hv := firstError_device_selection_invalid hdev hn
  intro i hi
  simp only [List.mem_cons, List.not_mem_nil, or_false] at hi
  rcases hi with rfl | rfl <;> exact exec_invalid hr rfl hv

/-! ### The relay functions (R164, R171, R172) -/

theorem relayApply_setBits_getLsbD (v m : Byte) (k : Nat) :
    (relayApply .setBits v m).getLsbD k = (v.getLsbD k || m.getLsbD k) := BitVec.getLsbD_or

theorem relayApply_clearBits_getLsbD (v m : Byte) (k : Nat) :
    (relayApply .clearBits v m).getLsbD k = (v.getLsbD k && !m.getLsbD k) := by
  rw [relayApply, BitVec.getLsbD_and, BitVec.getLsbD_not]
  by_cases hk : k < 8
  · simp [hk]
  · simp [BitVec.getLsbD_of_ge v k (not_lt.1 hk)]

/-- Setting bits that are set changes nothing (R171). -/
theorem relayApply_setBits_idem (v m : Byte) :
    relayApply .setBits (relayApply .setBits v m) m = relayApply .setBits v m := by
  simp [relayApply, BitVec.or_assoc]

/-- Clearing the bits just set is clearing them at the start. -/
theorem relayApply_clearBits_setBits (v m : Byte) :
    relayApply .clearBits (relayApply .setBits v m) m = relayApply .clearBits v m := by
  refine BitVec.eq_of_getLsbD_eq fun k _ => ?_
  simp only [relayApply_clearBits_getLsbD, relayApply_setBits_getLsbD]
  cases m.getLsbD k <;> simp

/-- Clearing one bit keeps every other bit. -/
theorem relayApply_clearBits_bit {v : Byte} {n : Nat} (hn : n < 8) (k : Nat) :
    (relayApply .clearBits v ((1 : Byte) <<< n)).getLsbD k = (v.getLsbD k && !decide (k = n)) := by
  rw [relayApply_clearBits_getLsbD, one_shiftLeft_getLsbD hn]

/-- Clearing one bit changes nothing exactly when the bit was clear (R172, C5). -/
theorem relayApply_clearBits_bit_eq_self {v : Byte} {n : Nat} (hn : n < 8) :
    relayApply .clearBits v ((1 : Byte) <<< n) = v ↔ v.getLsbD n = false := by
  constructor
  · intro h
    rw [← h, relayApply_clearBits_bit hn]
    simp
  · intro h
    refine BitVec.eq_of_getLsbD_eq fun k _ => ?_
    rw [relayApply_clearBits_bit hn]
    by_cases hk : k = n
    · simp [hk, h]
    · simp [hk]

end Sys2Proof.Machine
end

section
/-! The statements about relay selections and relay bits (43_relay_control.md), settled. -/

open Sys2Proof Sys2Proof.Machine

/-- Settles O11: each form's mask is described bit by bit (`boolsMask_getLsbD`, `listMask_getLsbD`). -/
theorem selectionNormalisation : Obligations.SelectionNormalisation := by
  refine ⟨fun m => rfl, fun bs hbs => ⟨_, normalise_bools hbs, fun i hi => ?_⟩, fun bs => normalise_bools_invalid,
    fun rs hrs => ?_, fun rs => normalise_list_invalid⟩
  · rw [boolsMask_getLsbD bs (by omega) (by omega), decide_eq_true (by omega), Bool.true_and]
    congr 1
    omega
  · have hv : ∀ r ∈ rs, validRelay r = true := fun r hr => (validRelay_iff r).2 (hrs r hr)
    exact ⟨_, normalise_list hv, fun k hk => listMask_getLsbD hv hk⟩

/-- Settles O12: one equation per relay function. -/
theorem relayBitsSetAndCleared : Obligations.RelayBitsSetAndCleared := by
  intro v m k
  exact ⟨relayApply_setBits_getLsbD v m k, relayApply_clearBits_getLsbD v m k⟩

/-- Settles O30: a valid device passes its check, so the refused relay or selection is the error that `exec_invalid`
writes. -/
theorem invalidRelayWritesResultOnly : Obligations.InvalidRelayWritesResultOnly := by
  refine ⟨fun s dev r hr hdev hn i hi => ?_,
    fun s dev bs hr hdev hn => exec_relays_invalid hr hdev (normalise_bools_invalid hn),
    fun s dev rs hr hdev hn => exec_relays_invalid hr hdev (normalise_list_invalid hn)⟩
  have hv : firstError [checkDevice dev, checkRelay r] = some .invalidRelay := by
    rw [checkRelay_eq_checkSelection]
    exact firstError_device_selection_invalid hdev (normalise_list_invalid ⟨r, List.mem_singleton_self r, hn⟩)
  simp only [List.mem_cons, List.not_mem_nil, or_false] at hi
  rcases hi with rfl | rfl | rfl <;> exact exec_invalid hr rfl hv
end

section
/-! SUPPORT. The transaction of a relay request (R165): its read stage is a read of CTL with `stage` set, so the states of a
read above serve it; FINISH then starts the write stage, which ends as a write does. -/

namespace Sys2Proof.Machine

/-! ### The states of a relay request -/

/-- The core with `stage` at the read stage, as ACCEPT of a relay request leaves it (R165). -/
def State.inReadStage (s : State) : State := { s with stage := some .readStage }

@[simp] theorem State.inReadStage_fields (s : State) :
    s.inReadStage.topo = s.topo ∧ s.inReadStage.stage = some .readStage ∧ s.inReadStage.rdval2 = s.rdval2 ∧
    s.inReadStage.log = s.log ∧ s.inReadStage.stat1 = s.stat1 ∧ s.inReadStage.stat2 = s.stat2 := by
  exact ⟨rfl, rfl, rfl, rfl, rfl, rfl⟩

theorem State.inReadStage_sameInstance (s : State) : s.SameInstance s.inReadStage := by constructor <;> rfl

theorem State.inReadStage_received (s : State) (a : Answer) : s.inReadStage.received a = s.received a := rfl

theorem State.SameInstance.handleFor {s t : State} (h : s.SameInstance t) (d : Dev) : t.handleFor d = s.handleFor d :=
  State.handleOf_congr h.topo h.hdl0 h.hdl1 h.hdl2 (.one d)

/-- A read leaves `stage` as it was when the read began. -/
@[simp] theorem State.read_stage (s : State) (rs : List RequestRecord) (i : Instr) (j : Job) (x y : Answer)
    (rest : List Answer) :
    (s.commandAnswered rs i j x rest).stage = s.stage ∧ (s.readAnswered rs i j x y rest).stage = s.stage := by
  simp [State.readAnswered, State.readPending, State.commandAnswered, State.started]

section
variable (s : State) (rs : List RequestRecord) (i : Instr) (d : Dev) (m : Byte) (f : RelayFn) (x y z : Answer)
  (rest : List Answer)

/-- The value a relay request writes when its follow-up frame is answered by `y` (R165). -/
def State.relayNew : Byte := relayApply f (decodeRegisterValue s.topo d (s.received y)) m

/-- The first transfer of a relay request fails with `x`. -/
def State.relayCommandFailed : State :=
  ((s.inReadStage.started rs i (.relay d m f)).completeFail (.one d) (s.handleFor d)
    (encodeSingleFrame s.topo .rd d ctlAddr 0x00) x rest).raise .transportFailure (some x.result)

/-- The read stage is over: CTL's byte is latched. -/
def State.relayRead : State := (s.inReadStage.readAnswered rs i (.relay d m f) x y rest).latchOne d (s.received y)

/-- The frame of the write stage is outstanding. -/
def State.relayWriting : State := (s.relayRead rs i d m f x y rest).writeStage d m f

/-- The end of a relay request whose three transfers were answered by `x`, `y` and `z`. -/
def State.relayDone : State :=
  ((s.relayWriting rs i d m f x y (z :: rest)).completeOk (.one d) (s.handleFor d)
    (encodeSingleFrame s.topo .wr d ctlAddr (s.relayNew d m f y)) z rest).completeCommand (.one d) (s.received z)
    (.byte (s.relayNew d m f y))

@[simp] theorem State.relayCommandFailed_fields :
    (s.relayCommandFailed rs i d m f x rest).stat1 = s.stat1 ∧ (s.relayCommandFailed rs i d m f x rest).stat2 = s.stat2 ∧
    (s.relayCommandFailed rs i d m f x rest).res = .err .transportFailure (some x.result) ∧
    (s.relayCommandFailed rs i d m f x rest).log = s.log ++ [{
      handle := s.handleFor d, tx := encodeSingleFrame s.topo .rd d ctlAddr 0x00, outcome := .fail x.result }] := by
  simp [State.relayCommandFailed]

theorem State.relayCommandFailed_rests : (s.relayCommandFailed rs i d m f x rest).Rests := by
  constructor <;> simp [State.relayCommandFailed]

/-- The log entries of the read stage, the follow-up with the outcome `o`. -/
theorem State.inReadStage_readLog (o : XferOutcome) :
    s.inReadStage.readLog (.relay d m f) x o =
      [{ handle := s.handleFor d, tx := encodeSingleFrame s.topo .rd d 7 0x00, outcome := .ok (s.received x) },
       { handle := s.handleFor d, tx := diagFrame s.topo, outcome := o }] := rfl

@[simp] theorem State.relayRead_fields :
    (s.relayRead rs i d m f x y rest).topo = s.topo ∧ (s.relayRead rs i d m f x y rest).phase = .resultAvailable ∧
    (s.relayRead rs i d m f x y rest).cur = some i ∧ (s.relayRead rs i d m f x y rest).stage = some .readStage ∧
    (s.relayRead rs i d m f x y rest).stat1 = (s.updateStat (.one d) (s.received x)).stat1 ∧
    (s.relayRead rs i d m f x y rest).stat2 = (s.updateStat (.one d) (s.received x)).stat2 ∧
    (s.relayRead rs i d m f x y rest).rdval1 = decodeRegisterValue s.topo d (s.received y) ∧
    (s.relayRead rs i d m f x y rest).rdval2 = s.rdval2 ∧ (s.relayRead rs i d m f x y rest).requests = rs ∧
    (s.relayRead rs i d m f x y rest).answers = rest ∧
    (s.relayRead rs i d m f x y rest).log = s.log ++ s.inReadStage.readLog (.relay d m f) x (.ok (s.received y)) := by
  simp [State.relayRead, jobTarget, State.inReadStage_received]

theorem State.relayRead_sameInstance : s.SameInstance (s.relayRead rs i d m f x y rest) :=
  (s.inReadStage_sameInstance.trans (State.readAnswered_sameInstance _ rs i (.relay d m f) x y rest)).trans
    (by constructor <;> simp [State.relayRead])

theorem State.relayWriting_sameInstance : s.SameInstance (s.relayWriting rs i d m f x y rest) :=
  (s.relayRead_sameInstance rs i d m f x y rest).trans (by constructor <;> simp [State.relayWriting])

@[simp] theorem State.relayWriting_received (a : Answer) :
    (s.relayWriting rs i d m f x y rest).received a = s.received a :=
  State.received_congr (s.relayWriting_sameInstance rs i d m f x y rest).len a

/-- The frame of the write stage carries the new value to CTL (R163, R165). -/
@[simp] theorem State.relayWriting_fields :
    (s.relayWriting rs i d m f x y rest).topo = s.topo ∧ (s.relayWriting rs i d m f x y rest).phase = .commandIssued ∧
    (s.relayWriting rs i d m f x y rest).cur = some i ∧ (s.relayWriting rs i d m f x y rest).stage = some .writeStage ∧
    (s.relayWriting rs i d m f x y rest).stat1 = (s.updateStat (.one d) (s.received x)).stat1 ∧
    (s.relayWriting rs i d m f x y rest).stat2 = (s.updateStat (.one d) (s.received x)).stat2 ∧
    (s.relayWriting rs i d m f x y rest).rdval1 = decodeRegisterValue s.topo d (s.received y) ∧
    (s.relayWriting rs i d m f x y rest).rdval2 = s.rdval2 ∧
    (s.relayWriting rs i d m f x y rest).xferOut =
      some (s.handleFor d, encodeSingleFrame s.topo .wr d ctlAddr (s.relayNew d m f y)) ∧
    (s.relayWriting rs i d m f x y rest).requests = rs ∧ (s.relayWriting rs i d m f x y rest).answers = rest ∧
    (s.relayWriting rs i d m f x y rest).log = (s.relayRead rs i d m f x y rest).log := by
  have hh := (s.relayRead_sameInstance rs i d m f x y rest).handleFor d
  simp [State.relayWriting, State.relayNew, hh]

@[simp] theorem State.relayDone_fields :
    (s.relayDone rs i d m f x y z rest).stat d = decodeStatus s.topo d (s.received z) ∧
    (s.relayDone rs i d m f x y z rest).stat (otherDev d) = s.stat (otherDev d) ∧
    (s.relayDone rs i d m f x y z rest).rdval1 = decodeRegisterValue s.topo d (s.received y) ∧
    (s.relayDone rs i d m f x y z rest).rdval2 = s.rdval2 ∧
    (s.relayDone rs i d m f x y z rest).res = .ok (.byte (s.relayNew d m f y)) ∧
    (s.relayDone rs i d m f x y z rest).requests = rs ∧ (s.relayDone rs i d m f x y z rest).answers = rest ∧
    (s.relayDone rs i d m f x y z rest).log = s.log ++ s.inReadStage.readLog (.relay d m f) x (.ok (s.received y)) ++ [{
      handle := s.handleFor d, tx := encodeSingleFrame s.topo .wr d ctlAddr (s.relayNew d m f y),
      outcome := .ok (s.received z) }] := by
  refine ⟨?_, ?_, by simp [State.relayDone]⟩
  · cases d <;> simp [State.relayDone, State.stat]
  · cases d <;> simp [State.relayDone, State.stat, otherDev]

theorem State.relayDone_answers : (s.relayDone rs i d m f x y z rest).answers = rest := by simp

theorem State.relayDone_sameInstance : s.SameInstance (s.relayDone rs i d m f x y z rest) :=
  (s.relayWriting_sameInstance rs i d m f x y (z :: rest)).trans (by constructor <;> simp [State.relayDone])

theorem State.relayDone_rests : (s.relayDone rs i d m f x y z rest).Rests := by
  constructor <;> simp [State.relayDone]

end

/-! ### The runs -/

/-- The relay request `i` is the oldest one presented at a ready port and passes all of its checks; it applies `f` with the
mask `m` to CTL of device `d`. -/
structure State.PresentsRelay (s : State) (rs : List RequestRecord) (i : Instr) (d : Dev) (m : Byte) (f : RelayFn) :
    Prop where
  ready : s.ready = true
  external : s.external = []
  record : ∃ r, s.requests = r :: rs ∧ decodeRequest r = .ok i
  valid : validate s.topo i = none
  job : jobOf i = some (.relay d m f)

/-- A relay request begins with the read of CTL. -/
theorem acceptedEffect_of_relay {i : Instr} {d : Dev} {m : Byte} {f : RelayFn} (hj : jobOf i = some (.relay d m f))
    (s : State) : acceptedEffect i s = s.startRelay i d := by
  cases i <;> cases hj <;> rfl

section
variable {s : State} {rs : List RequestRecord} {i : Instr} {d : Dev} {m : Byte} {f : RelayFn} {x y z : Answer}
  {rest : List Answer}

theorem step_relayStarted (h : s.PresentsRelay rs i d m f) :
    step s = .next (s.inReadStage.started rs i (.relay d m f)) := by
  obtain ⟨r, hq, hd⟩ := h.record
  rw [step_accept h.ready h.external hq hd h.valid, acceptedEffect_of_relay h.job]
  rfl

/-- A relay request whose first transfer fails is two steps (R187). -/
theorem run_relayCommandFailed (h : s.PresentsRelay rs i d m f) (ha : s.answers = x :: rest) (hx : x.result < 0) :
    Host.Core.run Sys2Proof.core 2 s = .next (s.relayCommandFailed rs i d m f x rest) := by
  have h2 : step (s.inReadStage.started rs i (.relay d m f)) = .next (s.relayCommandFailed rs i d m f x rest) :=
    step_transferFailed (s := s.inReadStage.started rs i (.relay d m f)) h.external (s.ready_iff.1 h.ready).1 rfl h.job
      rfl ha hx (.inl rfl)
  rw [run_step 1 (step_relayStarted h)]
  exact run_step 0 h2

/-- Two steps accept a relay request and answer its first transfer with `ok`: the follow-up is issued. -/
theorem run_relayPending (k : Nat) (h : s.PresentsRelay rs i d m f) (ha : s.answers = x :: rest) (hx : 0 ≤ x.result) :
    Host.Core.run Sys2Proof.core (k + 2) s =
      Host.Core.run Sys2Proof.core k (s.inReadStage.readPending rs i (.relay d m f) x rest) := by
  have h2 : step (s.inReadStage.started rs i (.relay d m f)) =
      .next (s.inReadStage.readPending rs i (.relay d m f) x rest) :=
    step_commandAnswered h.external (s.ready_iff.1 h.ready).1 rfl h.job rfl ha hx rfl rfl
  rw [run_step (k + 1) (step_relayStarted h), run_step k h2]

/-- A relay request whose follow-up frame fails is three steps (R187). -/
theorem run_relayReadFailed (h : s.PresentsRelay rs i d m f) (ha : s.answers = x :: y :: rest) (hx : 0 ≤ x.result)
    (hy : y.result < 0) :
    Host.Core.run Sys2Proof.core 3 s = .next (s.inReadStage.readFailed rs i (.relay d m f) x y rest) := by
  have hi := s.inReadStage.readPending_sameInstance rs i (.relay d m f) x (y :: rest)
  have h3 : step (s.inReadStage.readPending rs i (.relay d m f) x (y :: rest)) =
      .next (s.inReadStage.readFailed rs i (.relay d m f) x y rest) :=
    step_transferFailed (hi.external.trans h.external) (hi.life.trans (s.ready_iff.1 h.ready).1) (by simp) h.job (by simp)
      (by simp) hy (by simp)
  rw [run_relayPending 1 h ha hx]
  exact run_step 0 h3

/-- A relay request's fourth step is FINISH of its read stage, which issues the write (R165). -/
theorem run_relayWriting (k : Nat) (h : s.PresentsRelay rs i d m f) (ha : s.answers = x :: y :: rest) (hx : 0 ≤ x.result)
    (hy : 0 ≤ y.result) :
    Host.Core.run Sys2Proof.core (k + 4) s = Host.Core.run Sys2Proof.core k (s.relayWriting rs i d m f x y rest) := by
  have hi := s.inReadStage.readPending_sameInstance rs i (.relay d m f) x (y :: rest)
  have hi' := s.relayRead_sameInstance rs i d m f x y rest
  have h3 : step (s.inReadStage.readPending rs i (.relay d m f) x (y :: rest)) =
      .next (s.relayRead rs i d m f x y rest) :=
    step_followUpAnswered (h := s.inReadStage.handleOf (jobTarget (.relay d m f))) (tx := diagFrame s.topo) (rest := rest)
      (hi.external.trans h.external) (hi.life.trans (s.ready_iff.1 h.ready).1) (by simp) h.job (by simp) (by simp) hy
      (by simp) (by rw [State.received_congr hi.len]; rfl)
  have h4 : step (s.relayRead rs i d m f x y rest) = .next (s.relayWriting rs i d m f x y rest) := by
    rw [step_finish (hi'.external.trans h.external) (hi'.life.trans (s.ready_iff.1 h.ready).1) (by simp)]
    simp [State.finish, h.job, State.relayWriting]
  rw [run_relayPending (k + 2) h ha hx, run_step (k + 1) h3, run_step k h4]

/-- A relay request whose three transfers are answered with `ok` is five steps (R165). -/
theorem run_relayDone (k : Nat) (h : s.PresentsRelay rs i d m f) (ha : s.answers = x :: y :: z :: rest)
    (hx : 0 ≤ x.result) (hy : 0 ≤ y.result) (hz : 0 ≤ z.result) :
    Host.Core.run Sys2Proof.core (k + 5) s = Host.Core.run Sys2Proof.core k (s.relayDone rs i d m f x y z rest) := by
  have hi := s.relayWriting_sameInstance rs i d m f x y (z :: rest)
  have h5 : step (s.relayWriting rs i d m f x y (z :: rest)) = .next (s.relayDone rs i d m f x y z rest) := by
    refine step_commandAnswered (h := s.handleFor d)
      (tx := encodeSingleFrame s.topo .wr d ctlAddr (s.relayNew d m f y)) (rest := rest) (hi.external.trans h.external)
      (hi.life.trans (s.ready_iff.1 h.ready).1) (by simp) h.job (by simp) (by simp) hz (by simp) ?_
    simp [State.afterCommand, State.relayDone, State.relayNew, jobTarget]
  rw [run_relayWriting (k + 1) h ha hx hy, run_step k h5]

/-- After a relay request the next relay request in the queue is presented. -/
theorem State.PresentsRelay.relayDone {r' : RequestRecord} {i' : Instr} {m' : Byte} {f' : RelayFn}
    (h : s.PresentsRelay (r' :: rs) i d m f) (x y z : Answer) (rest : List Answer) (hd : decodeRequest r' = .ok i')
    (hv : validate s.topo i' = none) (hj : jobOf i' = some (.relay d m' f')) :
    (s.relayDone (r' :: rs) i d m f x y z rest).PresentsRelay rs i' d m' f' := by
  have hi := s.relayDone_sameInstance (r' :: rs) i d m f x y z rest
  exact ⟨(State.ready_iff _).2 ⟨hi.life.trans (s.ready_iff.1 h.ready).1, (s.relayDone_rests _ i d m f x y z rest).phase⟩,
    hi.external.trans h.external, ⟨r', by simp, hd⟩, by rw [hi.topo]; exact hv, hj⟩

end

end Sys2Proof.Machine
end

section
/-! SUPPORT. The four relay requests as presented ones (R167 to R170), and two relay requests of one device in a row (R171,
R172). -/

namespace Sys2Proof.Machine

/-- The checks and the job of each relay request, RELAY_ON and RELAY_OFF as selections of one relay (R162, R167 to R170). -/
theorem relay_validate_job {topo : Topology} {i : Instr} {dev rel m : Byte} {sel : Selection} {f : RelayFn}
    (hi : (i = .relayOn dev rel ∧ f = .setBits ∧ sel = .list [rel]) ∨
      (i = .relayOff dev rel ∧ f = .clearBits ∧ sel = .list [rel]) ∨
      (i = .relaysOn dev sel ∧ f = .setBits) ∨ (i = .relaysOff dev sel ∧ f = .clearBits))
    (hdev : dev = 1 ∨ dev = 2) (hm : normalise sel = .ok m) :
    validate topo i = none ∧ jobOf i = some (.relay (devOf dev) m f) := by
  have hv := firstError_device_selection hdev hm
  rw [← maskOf_eq sel m hm]
  rcases hi with ⟨rfl, rfl, rfl⟩ | ⟨rfl, rfl, rfl⟩ | ⟨rfl, rfl⟩ | ⟨rfl, rfl⟩ <;> exact ⟨hv, rfl⟩

/-- The mask of a relay in 1..8 (R160). -/
theorem normalise_relay {rel : Byte} (h1 : 1 ≤ rel.toNat) (h8 : rel.toNat ≤ 8) :
    normalise (.list [rel]) = .ok ((1 : Byte) <<< (rel.toNat - 1)) :=
  normalise_singleton rel ((validRelay_iff rel).2 ⟨h1, h8⟩)

/-- The last entry of a relay request's log is the write of its new value to CTL. -/
theorem State.relayDone_log_getLast (s : State) (rs : List RequestRecord) (i : Instr) (d : Dev) (m : Byte) (f : RelayFn)
    (x y z : Answer) (rest : List Answer) :
    (s.relayDone rs i d m f x y z rest).log.getLast? = some {
      handle := s.handleFor d, tx := encodeSingleFrame s.topo .wr d 7 (s.relayNew d m f y),
      outcome := .ok (s.received z) } := by
  simp [ctlAddr]

/-- Two relay requests of one device in a row: each returns and writes its own new value. -/
theorem run_two_relays {s : State} {r' : RequestRecord} {rs : List RequestRecord} {i i' : Instr} {d : Dev} {m m' : Byte}
    {f f' : RelayFn} {x y z x' y' z' : Answer} {rest : List Answer} (h : s.PresentsRelay (r' :: rs) i d m f)
    (hd : decodeRequest r' = .ok i') (hv : validate s.topo i' = none) (hj : jobOf i' = some (.relay d m' f'))
    (ha : s.answers = x :: y :: z :: x' :: y' :: z' :: rest) (hx : 0 ≤ x.result) (hy : 0 ≤ y.result) (hz : 0 ≤ z.result)
    (hx' : 0 ≤ x'.result) (hy' : 0 ≤ y'.result) (hz' : 0 ≤ z'.result) :
    ∃ t u, Host.Core.run Sys2Proof.core 5 s = .next t ∧ Host.Core.run Sys2Proof.core 10 s = .next u ∧
      t.res = .ok (.byte (s.relayNew d m f y)) ∧ u.res = .ok (.byte (s.relayNew d m' f' y')) ∧
      t.log.getLast? = some {
        handle := s.handleFor d, tx := encodeSingleFrame s.topo .wr d 7 (s.relayNew d m f y),
        outcome := .ok (s.received z) } ∧
      u.log.getLast? = some {
        handle := s.handleFor d, tx := encodeSingleFrame s.topo .wr d 7 (s.relayNew d m' f' y'),
        outcome := .ok (s.received z') } := by
  have hi := s.relayDone_sameInstance (r' :: rs) i d m f x y z (x' :: y' :: z' :: rest)
  have hrun := run_relayDone 0 (h.relayDone x y z (x' :: y' :: z' :: rest) hd hv hj) (State.relayDone_answers ..) hx' hy' hz'
  have hlast := State.relayDone_log_getLast (s.relayDone (r' :: rs) i d m f x y z (x' :: y' :: z' :: rest)) rs i' d m' f'
    x' y' z' rest
  have hnew : (s.relayDone (r' :: rs) i d m f x y z (x' :: y' :: z' :: rest)).relayNew d m' f' y' =
      s.relayNew d m' f' y' := by
    rw [State.relayNew, hi.topo, State.received_congr hi.len, State.relayNew]
  rw [hnew, hi.handleFor, hi.topo, State.received_congr hi.len] at hlast
  refine ⟨_, _, run_relayDone 0 h ha hx hy hz, (run_relayDone 5 h ha hx hy hz).trans hrun, by simp, by simp [hnew],
    s.relayDone_log_getLast .., hlast⟩

end Sys2Proof.Machine
end

section
/-! The statements about the transactions of relay requests (43_relay_control.md), settled. -/

open Sys2Proof Sys2Proof.Machine

/-- Settles O43: the run is `run_relayDone`; its first two log entries are the read of CTL, the third the write. -/
theorem relayTransaction : Obligations.RelayTransaction := by
  intro s r rs i dev rel sel f m x y z rest hr hw hq hd hi hdev hm ha hx hy hz d read new
  obtain ⟨hv, hj⟩ := relay_validate_job hi hdev hm
  have h : s.PresentsRelay rs i d m f := ⟨hr, hw, ⟨r, hq, hd⟩, hv, hj⟩
  refine ⟨_, run_relayDone 0 h ha hx hy hz, s.relayDone_rests rs i d m f x y z rest,
    s.relayDone_sameInstance rs i d m f x y z rest, ?_, ?_, ?_, ?_, ?_, ?_, ?_, ?_⟩ <;>
    simp [State.inReadStage_readLog, State.relayNew, ctlAddr, read, new]

/-- Settles O45: the runs are `run_relayCommandFailed` and `run_relayReadFailed`; neither issues a write. -/
theorem failedRelayReadSendsNoWrite : Obligations.FailedRelayReadSendsNoWrite := by
  intro s r rs i d m f x y rest hr hw hq hd hv hj ha
  have h : s.PresentsRelay rs i d m f := ⟨hr, hw, ⟨r, hq, hd⟩, hv, hj⟩
  refine ⟨fun hx => ?_, fun hx hy => ?_⟩
  · refine ⟨_, run_relayCommandFailed h ha hx, s.relayCommandFailed_rests rs i d m f x (y :: rest), ?_, ?_, ?_, ?_⟩ <;>
      simp [ctlAddr]
  · obtain ⟨hs, hs'⟩ := State.stat_of_updateStat (s := s.inReadStage) (d := d) (rx := s.received x)
      (t := s.inReadStage.readFailed rs i (.relay d m f) x y rest) (by simp [jobTarget, State.inReadStage_received])
      (by simp [jobTarget, State.inReadStage_received])
    refine ⟨_, run_relayReadFailed h ha hx hy, State.readFailed_rests .., by simp, hs, ?_, ?_⟩
    · rw [hs']
      exact State.stat_congr rfl rfl _
    · simp [State.inReadStage_readLog]

/-- Settles O46: setting the relay's bit in a byte that has it set changes nothing (`relayApply_setBits_idem`). -/
theorem relayOnTwiceWritesSameValue : Obligations.RelayOnTwiceWritesSameValue := by
  intro s r rs dev rel x y z x' y' z' rest hr hw hq hd hdev h1 h8 ha hx hy hz hx' hy' hz' d new hread
  obtain ⟨hv, hj⟩ := relay_validate_job (topo := s.topo) (.inl ⟨rfl, rfl, rfl⟩) hdev (normalise_relay h1 h8)
  have hnew' : s.relayNew d ((1 : Byte) <<< (rel.toNat - 1)) .setBits y' = new := by
    rw [State.relayNew, hread]
    exact relayApply_setBits_idem _ _
  have h := run_two_relays ⟨hr, hw, ⟨r, hq, hd⟩, hv, hj⟩ hd hv hj ha hx hy hz hx' hy' hz'
  rwa [show devOf dev = d from rfl, hnew'] at h

/-- Settles O47: clearing the relay's bit in the byte just written is clearing it in the starting byte
(`relayApply_clearBits_setBits`), which keeps that byte exactly when the bit was clear. -/
theorem relayOnThenOffRestoresClearedBit : Obligations.RelayOnThenOffRestoresClearedBit := by
  intro s r r' rs dev rel x y z x' y' z' rest hr hw hq hd hd' hdev h1 h8 ha hx hy hz hx' hy' hz' d v hread
  obtain ⟨hv, hj⟩ := relay_validate_job (topo := s.topo) (.inl ⟨rfl, rfl, rfl⟩) hdev (normalise_relay h1 h8)
  obtain ⟨hv', hj'⟩ := relay_validate_job (topo := s.topo) (.inr (.inl ⟨rfl, rfl, rfl⟩)) hdev (normalise_relay h1 h8)
  obtain ⟨_, u, _, hu, _, hres, _, hlog⟩ :=
    run_two_relays ⟨hr, hw, ⟨r, hq, hd⟩, hv, hj⟩ hd' hv' hj' ha hx hy hz hx' hy' hz'
  have hnew : s.relayNew d ((1 : Byte) <<< (rel.toNat - 1)) .clearBits y' =
      relayApply .clearBits v ((1 : Byte) <<< (rel.toNat - 1)) := by
    rw [State.relayNew, hread]
    exact relayApply_clearBits_setBits _ _
  have hn : rel.toNat - 1 < 8 := by omega
  refine ⟨u, _, hu, hres, hlog, ?_⟩
  rw [show devOf dev = d from rfl, hnew]
  refine ⟨fun k hk => ?_, ?_, relayApply_clearBits_bit_eq_self hn⟩
  · rw [relayApply_clearBits_bit hn, decide_eq_false hk, Bool.not_false, Bool.and_true]
  · rw [relayApply_clearBits_bit hn, decide_eq_true rfl, Bool.not_true, Bool.and_false]
end

section
/-! SUPPORT. Which check fails with which error (R162, R182, R183), the first failing check of a request (R186), and what an
accepted request can leave in `res`. -/

namespace Sys2Proof.Machine

/-! ### The error of each check (R183) -/

theorem checkDevice_invalid {dev : Byte} (h1 : dev ≠ 1) (h2 : dev ≠ 2) : checkDevice dev = some .invalidDevice :=
  if_neg (not_or.2 ⟨h1, h2⟩)

theorem checkAddress_invalid {a : Byte} (h : ¬ (1 ≤ a.toNat ∧ a.toNat ≤ 8)) : checkAddress a = some .invalidAddress :=
  if_neg (mt (validAddress_iff _).1 h)

theorem checkDevice_error {dev : Byte} {k : ErrorKind} (h : checkDevice dev = some k) : k = .invalidDevice := by
  unfold checkDevice at h
  split at h <;> simp_all

theorem checkAddress_error {a : Byte} {k : ErrorKind} (h : checkAddress a = some k) : k = .invalidAddress := by
  unfold checkAddress at h
  split at h <;> simp_all

theorem checkTopology_error {topo : Topology} {k : ErrorKind} (h : checkTopology topo = some k) :
    k = .modeViolation ∧ topo = .independent := by
  cases topo <;> simp_all [checkTopology]

theorem checkSelection_error {sel : Selection} {k : ErrorKind} (h : checkSelection sel = some k) : k = .invalidRelay := by
  cases hn : normalise sel with
  | ok m => simp [checkSelection, hn] at h
  | error k' =>
    obtain rfl : k' = k := by simpa [checkSelection, hn] using h
    exact normalise_error sel k' hn

theorem checkRelay_error {r : Byte} {k : ErrorKind} (h : checkRelay r = some k) : k = .invalidRelay :=
  checkSelection_error (checkRelay_eq_checkSelection r ▸ h)

/-! ### The first failing check (R186) -/

/-- The error reported is the error of one of the checks. -/
theorem mem_of_firstError {l : List (Option ErrorKind)} {k : ErrorKind} (h : firstError l = some k) : some k ∈ l := by
  induction l with
  | nil => cases h
  | cons c l ih =>
    cases c with
    | none => exact List.mem_cons_of_mem _ (ih h)
    | some k' => exact h ▸ List.mem_cons_self

theorem firstError_device_invalid {dev : Byte} (h1 : dev ≠ 1) (h2 : dev ≠ 2) (l : List (Option ErrorKind)) :
    firstError (checkDevice dev :: l) = some .invalidDevice := by
  rw [checkDevice_invalid h1 h2, firstError_some]

theorem firstError_device_address_invalid {dev a : Byte} (hdev : dev = 1 ∨ dev = 2)
    (ha : ¬ (1 ≤ a.toNat ∧ a.toNat ≤ 8)) : firstError [checkDevice dev, checkAddress a] = some .invalidAddress := by
  rw [(checkDevice_eq_none dev).2 hdev, checkAddress_invalid ha]
  rfl

/-- Whichever address of a pair is outside 1..8, the error is the same. -/
theorem firstError_topology_addresses_invalid {topo : Topology} {a1 a2 : Byte} (ht : topo = .daisyChained)
    (ha : ¬ (1 ≤ a1.toNat ∧ a1.toNat ≤ 8) ∨ ¬ (1 ≤ a2.toNat ∧ a2.toNat ≤ 8)) :
    firstError [checkTopology topo, checkAddress a1, checkAddress a2] = some .invalidAddress := by
  rw [(checkTopology_eq_none topo).2 ht, firstError_none]
  by_cases h1 : 1 ≤ a1.toNat ∧ a1.toNat ≤ 8
  · rw [(checkAddress_eq_none a1).2 ((validAddress_iff _).2 h1), checkAddress_invalid (ha.resolve_left (not_not_intro h1))]
    rfl
  · rw [checkAddress_invalid h1, firstError_some]

theorem firstError_topology_independent {topo : Topology} (ht : topo = .independent) (l : List (Option ErrorKind)) :
    firstError (checkTopology topo :: l) = some .modeViolation := by
  rw [ht]
  rfl

/-- The four errors of validation; ModeViolation is that of a pair request under Independent (R181, R182). -/
theorem validate_error {topo : Topology} {i : Instr} {k : ErrorKind} (h : validate topo i = some k) :
    k = .invalidAddress ∨ k = .invalidDevice ∨ k = .invalidRelay ∨
      (k = .modeViolation ∧ topo = .independent ∧ isPairRequest i = true) := by
  cases i with
  | diag | rd | rst | wr | teardown => cases h
  | read2 | write2 | reset2 =>
    have hmem := mem_of_firstError h
    simp only [List.mem_cons, List.not_mem_nil, or_false] at hmem
    rcases hmem with hc | hc | hc
    · obtain ⟨hk, ht⟩ := checkTopology_error hc.symm
      exact .inr (.inr (.inr ⟨hk, ht, rfl⟩))
    · exact .inl (checkAddress_error hc.symm)
    · exact .inl (checkAddress_error hc.symm)
  | status => exact .inr (.inl (checkDevice_error (List.mem_singleton.1 (mem_of_firstError h)).symm))
  | read1 | write1 | reset1 =>
    rcases List.mem_pair.1 (mem_of_firstError h) with hc | hc
    · exact .inr (.inl (checkDevice_error hc.symm))
    · exact .inl (checkAddress_error hc.symm)
  | relayOn | relayOff | health =>
    rcases List.mem_pair.1 (mem_of_firstError h) with hc | hc
    · exact .inr (.inl (checkDevice_error hc.symm))
    · exact .inr (.inr (.inl (checkRelay_error hc.symm)))
  | relaysOn | relaysOff =>
    rcases List.mem_pair.1 (mem_of_firstError h) with hc | hc
    · exact .inr (.inl (checkDevice_error hc.symm))
    · exact .inr (.inr (.inl (checkSelection_error hc.symm)))

/-- ModeViolation comes from the topology check of a pair request alone (R182). -/
theorem validate_modeViolation {topo : Topology} {i : Instr} (h : validate topo i = some .modeViolation) :
    topo = .independent ∧ isPairRequest i = true := by
  simpa using validate_error h

/-! ### What execution leaves in `res` -/

/-- The effect of a validated request raises no error: `res` is kept or is an `Ok`. -/
theorem acceptedEffect_res (i : Instr) (s : State) :
    (acceptedEffect i s).res = s.res ∨ ∃ p, (acceptedEffect i s).res = .ok p := by
  rcases acceptedEffect_cases i s with ⟨j, _, _, h⟩ | ⟨d, m, f, _, h⟩ | ⟨_, p, h⟩ | ⟨_, h⟩ | ⟨_, h⟩
  · exact .inl (by simp [h])
  · exact .inl (by simp [h])
  · exact .inr ⟨p, by simp [h]⟩
  · exact .inr ⟨.unit, by simp [h]⟩
  · exact .inl (by rw [h])

/-- An instruction that answers a next state keeps `res`, writes an `Ok`, or writes the error of a failed check. -/
theorem exec_res_cases {s t : State} {i : Instr} (h : exec i s = .next t) :
    t.res = s.res ∨ (∃ p, t.res = .ok p) ∨ ∃ k, validate s.topo i = some k ∧ t.res = .err k none := by
  rcases exec_cases h with ⟨_, d, rfl⟩ | ⟨_, _, _, rfl⟩ | ⟨_, _, k, hv, rfl⟩ | ⟨_, _, _, rfl⟩
  · exact .inl (by simp)
  · exact (acceptedEffect_res i s).imp_right .inl
  · exact .inr (.inr ⟨k, hv, by simp⟩)
  · exact .inl rfl

end Sys2Proof.Machine
end

section
/-! SUPPORT. Steps that end in an error: a request waiting at the port outside Live (R195), and an INIT whose open fails
(R188, R210). -/

namespace Sys2Proof.Machine

theorem step_request_tornDown {s : State} {r : RequestRecord} {rs : List RequestRecord} (hw : s.external = [])
    (hq : s.requests = r :: rs) (hl : s.life = .tornDown) : step s = .refused .notLive := by
  simp [step, fetch, fetchTornDown, hw, hl, hq]

theorem step_request_unconstructed {s : State} {r : RequestRecord} {rs : List RequestRecord} (hw : s.external = [])
    (hq : s.requests = r :: rs) (hl : s.life = .unconstructed) (hc : s.construct = none) :
    step s = .refused .notLive := by
  simp [step, fetch, fetchUnconstructed, hw, hl, hq, hc]

theorem State.init_firstOpen_fails (s : State) {c : Construction} {e : Int} (ho : c.firstOpen = .failure e) :
    s.init c = (s.call (.openChannel (if c.topology = .independent then c.ch1 else c.chDC) c.baud c.spiMode
      (.failure e))).failInit c e := by
  cases ht : c.topology <;> simp [State.init, ht, ho]

theorem State.init_secondOpen_fails (s : State) {c : Construction} {h : Handle} {e : Int}
    (ht : c.topology = .independent) (ho1 : c.firstOpen = .handle h) (ho2 : c.secondOpen = .failure e) :
    s.init c = (((s.call (.openChannel c.ch1 c.baud c.spiMode (.handle h))).call
      (.openChannel c.ch2 c.baud c.spiMode (.failure e))).call (.closeChannel h)).failInit c e := by
  simp [State.init, ht, ho1, ho2]

end Sys2Proof.Machine
end

section
/-! The statements about errors and refusals (60_exceptions.md), settled. -/

open Sys2Proof Sys2Proof.Machine

/-- Settles O26: `validate_error` lists the errors of the checks, and `exec_invalid` is the effect. -/
theorem validationErrorChangesResultOnly : Obligations.ValidationErrorChangesResultOnly := by
  intro s i k hr hi hv
  refine ⟨?_, exec_invalid hr hi hv⟩
  rcases validate_error hv with hk | hk | hk | ⟨hk, _⟩ <;> simp [hk]

/-- Settles O27: the topology is the first check of a pair request; ModeViolation in `res` could only come from a failed
check, and `validate_modeViolation` says of which request and under which topology. -/
theorem pairRequestNeedsDaisyChain : Obligations.PairRequestNeedsDaisyChain := by
  refine ⟨fun s a1 v1 a2 v2 hr ht => ?_, fun s t i hi hres he hm => ?_⟩
  · have hv := firstError_topology_independent ht [checkAddress a1, checkAddress a2]
    exact ⟨exec_invalid hr rfl hv, exec_invalid hr rfl hv, exec_invalid hr rfl hv⟩
  · rcases exec_res_cases he with h | ⟨p, h⟩ | ⟨k, hv, h⟩
    · exact hres (h.symm.trans hm)
    · cases hm.symm.trans h
    · obtain rfl : k = .modeViolation := by simpa using h.symm.trans hm
      obtain ⟨ht, hp⟩ := validate_modeViolation hv
      simp [ht, hp] at hi

/-- Settles O32: ACCEPT at a busy port holds (`State.accept_busy`), and the moves that take a record need a ready port. -/
theorem busyPortHoldsRequests : Obligations.BusyPortHoldsRequests := by
  refine ⟨fun s i hl hp hi => by rw [exec_request i s hi, State.accept_busy s i _ hl hp], fun s t hl hp hs => ?_⟩
  cases step_moves hs with
  | init hu => simp [hl] at hu
  | result hr | teardown hr | start hr | startRelay hr => exact absurd (s.ready_iff.1 hr).2 hp
  | _ => simp

/-- Settles O37: the invariant has a transfer outstanding only in the two pending phases, with its bus request in `cur`, so
the step is the ANSWER of `step_transferFailed`. -/
theorem transportFailureAbortsRequest : Obligations.TransportFailureAbortsRequest := by
  intro s h tx a rest hi hl hw hx ha hn
  have hp : s.phase = .commandIssued ∨ s.phase = .resultPending :=
    (transferOutstandingExactlyWhenPending s hi hl).1 (by simp [hx])
  obtain ⟨i, j, _, _, hc, hj, _⟩ := State.sequencerFits_outstanding ((s.inv_iff.1 hi).1 (by simp [hl])) hp
  exact ⟨_, step_transferFailed hw hl hc hj hx ha hn hp, ⟨rfl, rfl, rfl, rfl⟩, by constructor <;> rfl,
    rfl, rfl, rfl, rfl, rfl, rfl, rfl, rfl⟩

/-- Settles O49: the step is INIT, and each failing open has its equation. -/
theorem failedInitLeavesNoInstance : Obligations.FailedInitLeavesNoInstance := by
  intro s c e hw hl hc
  refine ⟨fun ho => ⟨_, step_init hw hl hc, ?_⟩, fun h ht ho1 ho2 => ⟨_, step_init hw hl hc, ?_⟩⟩
  · rw [State.init_firstOpen_fails _ ho]
    simp [hl]
  · rw [State.init_secondOpen_fails _ ht ho1 ho2]
    simp [hl]

/-- Settles O28: the device is the first check of every request that names one. -/
theorem invalidDeviceWritesResultOnly : Obligations.InvalidDeviceWritesResultOnly := by
  intro s dev a v r sel hr h1 h2 i hi
  have hv := firstError_device_invalid h1 h2
  simp only [List.mem_cons, List.not_mem_nil, or_false] at hi
  rcases hi with rfl | rfl | rfl | rfl | rfl | rfl | rfl | rfl | rfl <;> exact exec_invalid hr rfl (hv _)

/-- Settles O29: the device or the topology passes its check, so the error is the address's. -/
theorem invalidAddressWritesResultOnly : Obligations.InvalidAddressWritesResultOnly := by
  refine ⟨fun s dev a v hr hdev ha i hi => ?_, fun s a1 v1 a2 v2 hr ht ha i hi => ?_⟩
  · have hv := firstError_device_address_invalid hdev ha
    simp only [List.mem_cons, List.not_mem_nil, or_false] at hi
    rcases hi with rfl | rfl | rfl <;> exact exec_invalid hr rfl hv
  · have hv := firstError_topology_addresses_invalid ht ha
    simp only [List.mem_cons, List.not_mem_nil, or_false] at hi
    rcases hi with rfl | rfl | rfl <;> exact exec_invalid hr rfl hv

/-- Settles O31: outside Live, ACCEPT refuses (`State.accept_notLive`), and so does the fetch of a waiting request. -/
theorem requestsOutsideLiveAreRefused : Obligations.RequestsOutsideLiveAreRefused := by
  refine ⟨fun s i hl hi => by rw [exec_request i s hi, State.accept_notLive s i _ hl], fun s r rs hw hq h => ?_⟩
  rcases h with hl | ⟨hl, hc⟩
  · exact step_request_tornDown hw hq hl
  · exact step_request_unconstructed hw hq hl hc
end
